-- ==== Sys2Proof/Word.lean ====
section
/-! DEFINITION. The word types of the register and byte spaces, and nothing else. -/

namespace Sys2Proof

/-- One 32-bit register word (R723). -/
abbrev Word := BitVec 32

/-- One byte of stack memory, of a message body or of on-die SRAM. -/
abbrev Byte := BitVec 8

/-- A 64-bit count or rack time (R482, and the LO and HI pairs of R108). -/
abbrev Wide := BitVec 64

end Sys2Proof
end

