-- ==== Sys2Proof/Syntax.lean ====
section
/-! DEFINITION. The commands of the block: one constructor of `Instr` for each row of the operation
table, with its operands. Operands name the place a step is about (a cluster, a slot, a port), the
bytes a message carries, and what physics or the far end delivers (converter errors, pulse outcomes,
symbols in error), which the spec leaves to the world outside the block (assumption 3). -/

namespace Sys2Proof

/-- The three requesters of the register space (R724). -/
inductive Requester where
  | lantern
  | mgmt
  | dzit
deriving DecidableEq, Repr

/-- Width of a travelling block, given by its carrier (R120, R123, R133). -/
inductive BlkFmt where
  | a8
  | a4
  | zb
  | p24
  | p16b
deriving DecidableEq, Repr

/-- A block with its header fields and what its token carries (R120–R123, R133). `man` holds 32
mantissas, none in a zero block. -/
structure Blk where
  fmt   : BlkFmt
  exp   : Nat
  zb    : Bool
  sat   : Bool
  ufl   : Bool
  nh    : Bool
  man   : List Int
  cause : Nat
  pt    : Nat
  sid   : Nat
  bslot : Nat
deriving DecidableEq, Repr

/-- The fields of a Portage beat tag that a message's beats share (R325, R326). -/
structure Tag where
  dcl   : Nat
  sub   : Nat
  kind  : Nat
  vc    : Nat
  pitch : Nat
  fmt   : Nat
  scl   : Nat
  src   : Nat
  bank  : Nat
deriving DecidableEq, Repr

/-- A Portage message on its way or at a consumer: the tag fields that its beats share, its blocks, and the numbers of its cluster-mesh
beats that fail parity (R327, R328). `id` is the source's number for the message (R338). -/
structure PMsg where
  tag    : Tag
  id     : Nat
  step   : Nat
  blks   : List Blk
  bad    : List Nat
deriving DecidableEq, Repr

/-- A control beat (TOKEN, ACK, REFUSE) with the parity of its tag and of its data copy (R329);
`target` is the cluster that answers (R767). -/
structure CBeat where
  tag    : Tag
  id     : Nat
  target : Nat
  tagOk  : Bool
  dataOk : Bool
deriving DecidableEq, Repr

/-- An error of one conversion against the exact code, in 1/256 code (R162): attempt 0 is the first
read, 1 to 3 its confidence repeats; `sub` is the sub-read of a split-row read. -/
structure ConvErr where
  attempt : Nat
  sub     : Nat
  col     : Nat
  bp      : Nat
  dev     : Int
deriving DecidableEq, Repr

/-- The tasks of the trim engine (R176). -/
inductive CalTask where
  | col
  | ref (p : Nat)
  | res (p : Nat)
deriving DecidableEq, Repr

/-- The takes of one task that a baseline visit makes on one unit (R178, R182): each a list of chunks, in pairs. -/
structure BaseCal where
  slot  : Nat
  task  : CalTask
  takes : List (List (List Int))
deriving DecidableEq, Repr

/-- Four check reads of one unit-plane with their conversion errors (R426). -/
structure CheckErr where
  c    : Nat
  slot : Nat
  p    : Nat
  errs : List (Nat × ConvErr)
deriving DecidableEq, Repr

/-- A sector found in error by a read: sector address, symbols in error, common failing pin (0x3F for
none) and pseudo-channel (R378, R394); whether the code missed three or more symbols and miscorrected the sector (R378), and the severity reports
of the stack's own code (R373). -/
structure SectErr where
  addr   : Nat
  syms   : Nat
  pin    : Nat
  pc     : Nat
  missed : Bool := false
  odecc  : Nat := 0
deriving DecidableEq, Repr

/-- The identity of a Stove operation's token, the SRAM lines it reads and the causes of its inputs
(R246, R253); `corr` words of its reads were corrected, and the lines in `bad` uncorrectable (R226, R255); `errs` are the stack sectors that it
read in error (R253, R378). -/
structure StvCtx where
  r      : Nat
  slot   : Nat
  pt     : Nat
  sid    : Nat
  bslot  : Nat
  causes : List Nat
  lines  : List Nat
  corr   : Nat
  bad    : List Nat
  errs   : List SectErr
deriving DecidableEq, Repr

/-- A MEMRD or MEMWR request at its controller (R383): the fields of its header, whether it entered the mesh at a die agent's attachment (R384), and
the numbers of its beats that fail parity, the header's being 0 (R327). -/
structure MemReq where
  addr  : Nat
  count : Nat
  sys   : Bool
  agent : Bool
  bad   : List Nat
  rsv   : Bool
  pitch : Nat
  scl   : Nat
  tag   : Nat
deriving DecidableEq, Repr

/-- A flit of a Ralpor or SDT link (R456): header fields and 608 body bytes; `crcOk` tells whether its
CRC passes at the destination (R458). -/
structure Flit where
  type  : Nat
  early : Bool
  last  : Bool
  lseq  : Nat
  vc    : Nat
  dst   : Nat
  src   : Nat
  spid  : Nat
  fmt   : Nat
  dcl   : Nat
  sub   : Nat
  kind  : Nat
  sid   : Nat
  cause : Nat
  pt    : Nat
  step  : Nat
  slot  : Nat
  nblk  : Nat
  tokc  : Nat
  crcOk : Bool
  body  : List Byte
deriving DecidableEq, Repr

/-- A codeword as received: whether the FEC corrected it or gave up, its control word and its flit
(R444, R445). -/
structure Codeword where
  corrected : Nat
  uncorr    : Bool
  ackseq    : Nat
  ackkind   : Nat
  xoff      : Nat
  flit      : Flit
deriving DecidableEq, Repr

/-- An Ethernet frame as its receive filter sees it (R473), with its SDT body when it has one; `hiber` tells whether the PCS reports a high error
rate as it comes (R490). -/
structure EthFrame where
  dmac    : Nat
  ptpMac  : Bool
  etype   : Nat
  ext     : Bool
  nexthdr : Nat
  dip     : Nat
  ptpIp   : Bool
  sip     : Nat
  sport   : Nat
  dport   : Nat
  ver     : Nat
  kind    : Nat
  hiber   : Bool
deriving DecidableEq, Repr

/-- The header of a Dzit message (R563); `ok` tells whether the message's LEN is the one of its OP and its reserved fields are 0 (R581). -/
structure DHdr where
  sid : Nat
  seq : Nat
  ok  : Bool := true
deriving DecidableEq, Repr

/-- A Dzit slot as received (R559, R563, R584). `first` and `slots`, and the header's `op`, `sid` and `seq`, belong to a message's first slot. -/
structure DzSlot where
  corrected : Nat
  uncorr    : Bool
  lseq      : Nat
  ackseq    : Nat
  ackkind   : Nat
  first     : Bool
  cls       : Nat
  slots     : Nat
  crcOk     : Bool
  cred      : List Nat
  op        : Nat := 1
  sid       : Nat := 0
  seq       : Nat := 0
deriving DecidableEq, Repr

/-- The body of a STREAM OPEN (R570). -/
structure OpenBody where
  slot    : Nat
  prio    : Nat
  fmtIn   : Nat
  fmtOut  : Nat
  int8exp : Nat
  mirror  : Bool
  rsv     : Bool
  kvbase  : Nat
  kvcap   : Nat
  kvpos   : Nat
deriving DecidableEq, Repr

/-- A stream table entry (R390). -/
structure StreamEnt where
  state    : Nat
  mirrored : Bool
  taken    : Bool
  slot     : Nat
  prio     : Nat
  fmtIn    : Nat
  fmtOut   : Nat
  int8exp  : Nat
  kvbase   : Nat
  kvcap    : Nat
  kvpos    : Nat
  pos      : Nat
  deadline : Nat
  seqin    : Nat
  seqout   : Nat
  endStat  : Nat
deriving DecidableEq, Repr

/-- A heartbeat of the partner (R546). -/
structure HeartMsg where
  ident : Nat
  role  : Nat
  state : Nat
  len   : Nat
  time  : Nat
  ack   : Nat
deriving DecidableEq, Repr

/-- A mirrored slot item (R540, SUB 0x03). -/
structure SlotItem where
  slot   : Nat
  state  : Nat
  ptr    : Nat
  digest : List Byte
  model0 : List Byte
  model1 : List Byte
  floor  : Nat
deriving DecidableEq, Repr

/-- A REPORT of the roll call (R709). -/
structure RollReport where
  trail  : Nat
  ident  : Nat
  x      : Nat
  y      : Nat
  ports  : Nat
  patch  : Bool
  lxm1   : Nat
  lym1   : Nat
  svn    : Nat
  nbrs   : List Nat
deriving DecidableEq, Repr

/-- What the boot flash answers for one copy (R690, R691). -/
structure FlashCopy where
  responds : Bool
  header   : List Byte
  keyset   : List Byte
  body     : List Byte
  sig      : List Byte
deriving DecidableEq, Repr

/-- One command of the block: a row of spec/opcode_table.json, in the table's order. -/
inductive Instr where
  -- registers (R20–R24, R721–R744)
  | registerWrite (q : Requester) (ra : Nat) (v : Word)
  | latchedLoRead (q : Requester) (ra : Nat)
  | statsReset (q : Requester) (page : Nat)
  | errorInject (q : Requester) (page : Nat) (v : Word)
  | lock (page : Nat) (key : Nat)
  | unlock (page : Nat) (key : Nat)
  -- units (R43–R111)
  | unitRead (c u : Nat) (ecc : List (Nat × Bool))
  | readComplete (c u : Nat) (errs : List ConvErr) (up2 : List Nat)
  | programGrant (r : Nat)
  | rowPulseVerify (c slot : Nat) (verified : Bool) (misread : List (Nat × Nat)) (fetched : Option (List Byte)) (errs : List (Nat × ConvErr))
  | spareSubstitute (q : Requester) (c n logical planes : Nat)
  | spareStandIn (q : Requester) (c n logical planes : Nat)
  | spareIdle (q : Requester) (c n : Nat)
  | spareReadoutRow (c n p row : Nat) (misread : List (Nat × Nat)) (fetched : Option (List Byte))
  | spareLoaded (c n : Nat) (checks : List CheckErr)
  | spareTakeover (c n : Nat)
  | unitFence (q : Requester) (c slot : Nat)
  | unitFenceLift (q : Requester) (c slot : Nat)
  | fenceTakesEffect (c slot : Nat)
  | marginWrite (q : Requester) (c slot code : Nat)
  -- cluster tables and formats
  | curveDataAccess (q : Requester) (c : Nat) (w : Option Word)
  | uatEntryWrite (q : Requester) (c : Nat) (hi : Word)
  | redEntryWrite (q : Requester) (c : Nat) (hi : Word)
  | rteEntryWrite (q : Requester) (c : Nat) (hi : Word)
  | routingTableAccess (q : Requester) (c : Nat) (w : Option Word)
  | precisionEpochReport (c : Nat)
  | recipeSelectWrite (q : Requester) (n : Nat) (v : Word)
  -- calibration and refresh (R162–R211)
  | calChunk (c slot : Nat) (task : CalTask) (vals : List Int)
  | baselineClusterVisit (r : Nat) (cals : List BaseCal) (checks : List CheckErr)
  | coeffWriteback (c slot : Nat)
  | refreshStart (c slot p : Nat)
  | refreshOverdue (c slot p : Nat)
  | trmCmdColRef (q : Requester) (r cluster slot : Nat)
  | trmCmdColRefRegion (q : Requester) (r : Nat)
  | trmCmdRes (q : Requester) (r cluster slot plane : Nat)
  | trmCmdRefresh (q : Requester) (r cluster slot plane : Nat)
  -- reduction, lane store, regulator (R212–R244)
  | reductionContribution (c e : Nat) (remote : Bool) (blks : List Blk)
  | reductionComplete (c e : Nat) (ecc : List (Nat × Bool))
  | laneWordRefill (c : Nat)
  | ivrOfsWrite (q : Requester) (r : Nat) (v : Word)
  | ivrStep (r : Nat)
  -- the Stove (R245–R255, R762)
  | stvNop (k : StvCtx)
  | stvGather (k : StvCtx) (base rows rowLen : Nat) (bf16 : Bool) (idx : List (Nat × Nat))
  | stvKvappend (k : StvCtx) (pos stride : Nat) (sr : Bool) (key value : List Word)
  | stvScore (k : StvCtx) (scale : Nat) (query : List Blk) (keys : List (List Blk))
  | stvSoftmax (k : StvCtx) (scores : List Word) (causal : Option Nat)
  | stvWsum (k : StvCtx) (desc : Nat) (weights : List Word) (values : List (List Blk))
  | stvNorm (k : StvCtx) (rms : Bool) (eps : Word) (a8 : Bool) (xs gain bias : List Word)
  | stvRope (k : StvCtx) (a8 : Bool) (xs : List Word) (angles : List (Word × Word))
  | stvTopk (k : StvCtx) (n : Nat) (logits : List Word)
  | stvSample (k : StvCtx) (invtemp topk topp : Nat) (logits : List Word)
  | stvResadd (k : StvCtx) (sr a8 : Bool) (xs ys : List Word)
  | stvEltwise (k : StvCtx) (mul a8 : Bool) (xs ys : List Word)
  | stoveOpComplete (r : Nat) (int8 : Bool) (dests : List Nat)
  | stackTransfer (r slot idx : Nat)
  | stackTransferComplete (r : Nat) (errs : List SectErr) (ecc : List (Nat × Bool))
  -- sequencers and cluster steps (R258–R293)
  | dieWordReach (slot : Nat)
  | gateInstant (slot : Nat)
  | regionWordReach (slot r : Nat)
  | clusterStepBegin (c : Nat) (ecc : List (Nat × Bool))
  | clusterStepComplete (c : Nat)
  | tokenArrival (c : Nat) (b : CBeat)
  | floorSample (r : Nat)
  | admStallTimeout (slot : Nat)
  -- admission (R294–R318)
  | admitImage (q : Requester)
  | admissionComplete
  | start (q : Requester) (slot : Nat)
  | retire (q : Requester) (slot : Nat)
  | abort (q : Requester) (slot : Nat)
  | release (q : Requester) (slot : Nat)
  | slotStopped (slot : Nat)
  -- the Portage mesh (R319–R349)
  | beatForward (c : Nat) (m : PMsg) (room : Bool)
  | dataMessageAccept (c : Nat) (m : PMsg)
  | ackArrival (c : Nat) (b : CBeat)
  | refuseArrival (c : Nat) (b : CBeat)
  | multicastReplicate (c : Nat) (m : PMsg) (entry : Nat) (room : List Nat)
  | multicastStall (c id : Nat)
  | linkDown (c port : Nat) (ends : Nat × Nat)
  | clusterFence (q : Requester) (c : Nat)
  -- the Guyline (R357–R361)
  | guylineWord (cls fails : Nat)
  | epochMessage (c : Nat)
  | fenceMessage (scope index slot : Nat) (lift : Bool)
  | routesw (r : Nat)
  | gateMessage (c step : Nat) (samples : List (Nat × Nat))
  | floorMessage (c slot floor : Nat)
  | sampleMessage (r : Nat) (samples : List (Nat × Nat))
  | recallMessage (c step gen : Nat)
  | regwr (q : Requester) (ra : Nat) (v : Word)
  | regrd (q : Requester) (ra : Nat)
  | regrsp (q : Requester) (status : Nat) (v : Word)
  | verdict (c step gen origin cause pitch pslot : Nat) (perm : Option Bool)
  | intr (r i : Nat)
  | counts (c : Nat) (ev : List (Nat × Nat × Nat))
  | rangeMessage (c step bslot pitch : Nat)
  -- stack memory (R372–R396)
  | memrd (m : MemReq) (errs : List SectErr)
  | memwr (m : MemReq) (data : List Byte) (causes : List Nat)
  | memrsp (dest : Nat) (line : Nat) (status : Nat) (data : List Byte) (bad : List Nat)
  | patrolRead (n : Nat) (err : Option SectErr) (temp : Option (Nat × Bool))
  | stackFence (q : Requester) (n : Nat)
  | stackFenceComplete (n : Nat)
  -- loading weights (R397–R441)
  | load (q : Requester) (mode plane up down : Nat)
  | loadAbort (q : Requester)
  | loadAck (q : Requester)
  | manifestCheckComplete
  | claimComplete
  | shardBytes (source : Nat) (bytes : List Byte)
  | shardFetchTimeout
  | bandProcess (tensor tk : Nat)
  | tileRecordWrite (c u p off : Nat) (sys : Bool) (parity : Bool) (data : List Byte)
  | loadCheck (checks : List CheckErr)
  | logbookWriteComplete (copy : Nat) (ok : Bool)
  | planePointerWrite (q : Requester) (slot ptr : Nat)
  -- Ralpor ports (R442–R472)
  | codewordReceive (p : Nat) (cw : Codeword)
  | replayTimeout (p : Nat)
  | laneFail (p lane : Nat) (syms : Option Nat)
  | lanemap (p lanes cwno : Nat)
  | trainComplete (p : Nat) (good : List Nat)
  | trainRetry (p : Nat) (signal : Bool)
  | signalLoss (p : Nat)
  | retrain (q : Requester) (p : Nat)
  | ident (p coord port lxm1 lym1 id : Nat) (valid : Bool)
  | linkwaitExpiry (p : Nat)
  | dataFlit (p : Nat) (f : Flit)
  | ingressToken (p src step : Nat)
  | recallFlit (p : Nat) (f : Flit)
  | shreq (p : Nat) (prefix16 : List Byte) (shard off : Nat)
  | shdata (p : Nat) (shard off : Nat) (bytes : List Byte)
  | shref (p : Nat) (shard code : Nat)
  | linkActionStart (p : Nat)
  | holdConfirm (p : Nat)
  | recallFlitSend (slot : Nat)
  -- Ethernet, SDT, rack time (R473–R494)
  | ethFrameReceive (e : Nat) (f : EthFrame)
  | sdtData (e path psn : Nat) (flits : List Flit)
  | sdtAck (e path ackpsn : Nat) (sack : List Nat)
  | sdtOpen (e path : Nat)
  | sdtOpenack (e path : Nat)
  | sdtError (e path code psn : Nat)
  | sdtAckTimer (e path : Nat)
  | sdtRto (e path psn : Nat)
  | peerDataAccess (q : Requester) (w : Option Word)
  | epochIn
  | rtsetArm (q : Requester) (hi : Word)
  | ptpMessage (e time : Nat) (lock : Bool)
  -- error records, fences, stress (R495–R532)
  | errorRecordResend
  | regionFence (q : Requester) (r : Nat)
  | regionPowerOff (r : Nat)
  | stressTestStart (c slot : Nat)
  | stressPhaseComplete (c slot : Nat) (pass : Bool)
  -- the double-wall pair (R533–R555)
  | pairEnable (q : Requester)
  | heartSend
  | heart (m : HeartMsg)
  | heartTimeout
  | confirm (q : Requester) (id : Nat)
  | deny (q : Requester) (id : Nat)
  | heldStreamTake (sid : Nat)
  | commitSend (slot : Nat)
  | mirrorStream (ents : List (Nat × StreamEnt))
  | mirrorWrite (src : Nat) (data : List Byte)
  | mirrorSlot (i : SlotItem)
  | mirrorCommit (num step slot : Nat)
  | commitAckSend
  | mirrorResult (msg : List Byte)
  | mirrorAck (num : Nat)
  | mirrorHandoff (sids : List Nat)
  | syncComplete
  -- the Dzit link and streams (R556–R589)
  | frameSend
  | sofMark (inTol : Bool) (marks : List Nat)
  | dzitSlot (d : DzSlot)
  | dzitTrainComplete (good : List Nat) (pathfinder : Bool)
  | dzitRetrain (q : Requester)
  | regRead (h : DHdr) (ra count : Nat)
  | regWrite (h : DHdr) (ra : Nat) (words : List Word)
  | open (h : DHdr) (b : OpenBody)
  | close (h : DHdr)
  | closeComplete (sid : Nat)
  | token (h : DHdr) (deadline index : Nat) (lenOk : Bool)
  | vector (h : DHdr) (deadline n : Nat) (lenOk : Bool) (elems : List Word)
  | next (h : DHdr) (deadline : Nat) (lenOk : Bool)
  | submitDeadline (sid seq : Nat)
  | put (h : DHdr) (addr : Nat) (rsvOk : Bool) (data : List Byte)
  | attestRequest (h : DHdr) (nonce : List Byte)
  | resultFormation (slot : Nat)
  | resultSend (sid : Nat)
  | eventSend
  -- clocks and power (R590–R637)
  | refLock
  | refHoldover
  | refMarks
  | reset (boardPos devPos : Nat)
  | regionPowerStage
  | svcWarn
  | damperPeriod
  | qmaxRecompute (pOther vdd coreA power : Nat)
  | throttleTimer (r : Nat)
  -- sense converters (R638–R664)
  | snsConversion (r : Nat) (microvolt : Nat) (temp16 : Nat)
  | droopTrigger (r uv ns : Nat)
  | thermalTrigger (r temp16 : Nat)
  | stormTrigger (r : Nat)
  | swtrig (q : Requester) (r : Nat)
  | snsStart (q : Requester) (r : Nat)
  | snsResClaim (q : Requester) (r : Nat)
  -- Whistle and counters (R665–R685)
  | coalesceTimer (src : Nat)
  | whiClaim (q : Requester) (t : Nat)
  | deviceClaim (t : Nat)
  | whiComplete (q : Requester) (t src : Nat)
  | whiSetpend (q : Requester) (src : Nat)
  | whiEnable (q : Requester)
  | whiCfgWrite (q : Requester) (src : Nat) (v : Word)
  | epochSnapshot
  | cntSnapcmd (q : Requester)
  | commandSnapshot
  -- boot, identity, system start-up (R686–R720)
  | startupStageComplete (copyA copyB : FlashCopy) (kept : List Nat) (rates : List Nat)
  | attest (nonce : List Byte)
  | provision (key : List Byte)
  | rotate (key sig : List Byte)
  | commitsvn
  | patch (bx by_ lxm1 lym1 : Nat)
  | trail (set : Bool)
  | errack (seq : Nat)
  | mgmtRegRead (tag ra count : Nat)
  | mgmtRegWrite (tag ra : Nat) (words : List Word)
  | call (p trail hops : Nat)
  | report (p : Nat) (r : RollReport)
  | table (p trail round seg lxm1 lym1 present : Nat) (ids : List Nat)
  | rollcallTableBuild
  | rstNFall
  | powerLoss
  | svcWarnHigh
deriving DecidableEq, Repr

end Sys2Proof
end

