-- ==== Sys2Proof/Machine/Bits.lean ====
section
/-! DEFINITION. Bit fields, two's complement and byte order (R13–R15), and small arithmetic. -/

namespace Sys2Proof.Machine

/-- Field [hi:lo] of a number (R13). -/
def fld (w hi lo : Nat) : Nat := (w / 2 ^ lo) % 2 ^ (hi + 1 - lo)

/-- A number with field [hi:lo] replaced. -/
def putFld (w hi lo v : Nat) : Nat :=
  w - fld w hi lo * 2 ^ lo + (v % 2 ^ (hi + 1 - lo)) * 2 ^ lo

/-- One bit of a number. -/
def bit (w i : Nat) : Bool := fld w i i == 1

/-- A Bool as one bit. -/
def b2n (b : Bool) : Nat := if b then 1 else 0

/-- A number with bit i set to b. -/
def putBit (w i : Nat) (b : Bool) : Nat := putFld w i i (b2n b)

/-- Field [hi:lo] of a register word. -/
def getF (w : Word) (hi lo : Nat) : Nat := fld w.toNat hi lo

/-- A register word with field [hi:lo] replaced. -/
def setF (w : Word) (hi lo v : Nat) : Word := BitVec.ofNat 32 (putFld w.toNat hi lo v)

/-- One bit of a register word. -/
def getB (w : Word) (i : Nat) : Bool := getF w i i == 1

/-- A register word with one bit replaced. -/
def setB (w : Word) (i : Nat) (b : Bool) : Word := setF w i i (b2n b)

/-- A word from a number. -/
def word (n : Nat) : Word := BitVec.ofNat 32 n

/-- The signed value of an n-bit two's-complement code. -/
def sx (n v : Nat) : Int :=
  let v := v % 2 ^ n
  if v < 2 ^ (n - 1) then (v : Int) else (v : Int) - (2 ^ n : Nat)

/-- The n-bit two's-complement code of an integer. -/
def tc (n : Nat) (i : Int) : Nat := (i % ((2 ^ n : Nat) : Int)).toNat

/-- An integer limited to a range. -/
def clampI (lo hi i : Int) : Int := if i < lo then lo else if hi < i then hi else i

/-- A number limited to a range. -/
def clampN (lo hi i : Nat) : Nat := if i < lo then lo else if hi < i then hi else i

/-- Addition that saturates at an n-bit field's greatest code. -/
def satAdd (n a b : Nat) : Nat := min (a + b) (2 ^ n - 1)

/-- The value of bytes in little-endian order (R14). -/
def leNat : List Byte → Nat
  | [] => 0
  | b :: bs => b.toNat + 256 * leNat bs

/-- n bytes of a number in little-endian order (R14). -/
def leBytes : Nat → Nat → List Byte
  | 0, _ => []
  | n + 1, v => BitVec.ofNat 8 v :: leBytes n (v / 256)

/-- Bytes [i, i + n) of a list, zero where the list ends. -/
def slice : List Byte → Nat → Nat → List Byte
  | l, i, n => let l := (l.drop i).take n; l ++ List.replicate (n - l.length) 0

/-- n bytes of a number in network byte order. -/
def beBytes (n v : Nat) : List Byte := (leBytes n v).reverse

/-- The little-endian number of n bytes at an offset. -/
def leAt (l : List Byte) (i n : Nat) : Nat := leNat (slice l i n)

/-- Split a list into pieces of n; `fuel` bounds their number. -/
def chunksF {α : Type} : Nat → Nat → List α → List (List α)
  | 0, _, _ => []
  | fuel + 1, n, l => if l.isEmpty then [] else l.take n :: chunksF fuel n (l.drop n)

/-- Split a list into pieces of n (n > 0). -/
def chunks {α : Type} (n : Nat) (l : List α) : List (List α) := chunksF l.length n l

/-- Division rounded to the nearest integer, ties to even, for a positive divisor (R124). -/
def rneDiv (a : Int) (d : Nat) : Int :=
  let q := a / (d : Int)
  let r := a % (d : Int)
  if 2 * r < (d : Int) then q
  else if (d : Int) < 2 * r then q + 1
  else if q % 2 = 0 then q else q + 1

/-- The sum of a list. -/
def sumI (l : List Int) : Int := l.foldl (· + ·) 0

/-- The sum of a list. -/
def sumN (l : List Nat) : Nat := l.foldl (· + ·) 0

/-- Element i of a list, or a default. -/
def nth {α : Type} (d : α) (l : List α) (i : Nat) : α := l.getD i d

/-- A list with element i replaced. -/
def setNth {α : Type} (l : List α) (i : Nat) (x : α) : List α := l.set i x

/-- The first number below n that a test accepts. -/
def firstBelow (n : Nat) (p : Nat → Bool) : Option Nat := (List.range n).find? p

/-- A fold over 0 … n − 1. -/
def foldRange {α : Type} (n : Nat) (f : Nat → α → α) (a : α) : α :=
  (List.range n).foldl (fun acc i => f i acc) a

/-- A CRC-32C (R456, R563) after one more byte. -/
def crcByte (crc : BitVec 32) (b : Byte) : BitVec 32 :=
  foldRange 8 (fun _ c => if c.getLsbD 0 then (c >>> 1) ^^^ 0x82F63B78#32 else c >>> 1) (crc ^^^ b.setWidth 32)

/-- CRC-32C of bytes. -/
def crc32c (l : List Byte) : Nat := (~~~ (l.foldl crcByte 0xFFFFFFFF#32)).toNat

end Sys2Proof.Machine
end

