-- ==== Sys2Proof/Machine/Flags.lean ====
section
/-! DEFINITION. Verdict causes and their order (R79, R80), block flags (R121, R122) the counter-based
generator (R127–R129), and blocks as bytes (R120, R133). -/

namespace Sys2Proof.Machine

/-- The verdict causes of R79. -/
def causePass : Nat := 0
def causeRepeat : Nat := 1
def causeNull : Nat := 2
def causeClipped : Nat := 3
def causeChecksum : Nat := 4
def causeReference : Nat := 5
def causeIllegal : Nat := 6
def causePlane : Nat := 7
def causeFenced : Nat := 8

/-- The causes 0x0 to 0x3 pass; every other cause fails (R79). -/
def causeFails (c : Nat) : Bool := decide (3 < c)

/-- Place of a cause in the order of R80: reserved causes, lowest first; then ILLEGAL, FENCED, PLANE,
REFERENCE, CHECKSUM; then CLIPPED, REPEAT, PASS; then NULL. -/
def causeRank (c : Nat) : Nat :=
  if 8 < c then c - 9
  else if c = causeIllegal then 10
  else if c = causeFenced then 11
  else if c = causePlane then 12
  else if c = causeReference then 13
  else if c = causeChecksum then 14
  else if c = causeClipped then 15
  else if c = causeRepeat then 16
  else if c = causePass then 17
  else 18

/-- The first of two causes in the order of R80. -/
def causeMin (a b : Nat) : Nat := if causeRank a ≤ causeRank b then a else b

/-- The first cause present in the order of R80; NULL where none is. -/
def causeFirst (cs : List Nat) : Nat := cs.foldl causeMin causeNull

/-- A zero block with its token's identity (R120, R122). -/
def zeroBlk (fmt : BlkFmt) (ufl : Bool) (cause pt sid bslot : Nat) : Blk :=
  { fmt := fmt, exp := 0, zb := true, sat := false, ufl := ufl, nh := false, man := [], cause := cause,
    pt := pt, sid := sid, bslot := bslot }

/-- Whether a consumer takes a block as a zero block: by its ZB bit or by its carrier (R122). -/
def isZero (b : Blk) : Bool := b.zb || decide (b.fmt = .zb)

/-- Whether a block's header is inconsistent: a zero block with SAT, NH or a non-zero E, or a carrier
that marks a zero block whose ZB is 0 (R122). -/
def hdrBad (b : Blk) : Bool :=
  isZero b && (b.sat || b.nh || decide (b.exp ≠ 0) || (decide (b.fmt = .zb) && !b.zb))

/-- A block as its consumer takes it (R122). -/
def takeBlk (b : Blk) : Blk := if isZero b then { b with exp := 0, zb := true, sat := false, nh := false, man := [] } else b

/-- Mantissa i of a block; 0 in a zero block (R122). -/
def manAt (b : Blk) (i : Nat) : Int := if isZero b then 0 else nth 0 b.man i

/-- The FLAGS byte of a block (R121). -/
def flagsByte (b : Blk) : Nat := b2n b.sat + 2 * b2n b.ufl + 4 * b2n b.zb + 8 * b2n b.nh

/-- One round of the generator (R129), modulo 2^64. -/
def genRound (key h i : Nat) : Nat :=
  let m := 2 ^ 64
  let h := Nat.xor h (h / 2 ^ 29)
  let h := (h * 0xE5C19A374D06B8F1) % m
  let h := Nat.xor h (h / 2 ^ 32)
  (h + key + i) % m

/-- The 32-bit draw of a key and a counter (R129). -/
def genDraw (key ctr : Nat) : Nat :=
  let h := Nat.xor key ((ctr * 0x8F3A6C512B7DE94B) % 2 ^ 64)
  let h := genRound key (genRound key (genRound key (genRound key h 1) 2) 3) 4
  h / 2 ^ 32

/-- The key of a draw: site, origin and stream ID (R127). -/
def genKey (site origin sid : Nat) : Nat := site * 2 ^ 44 + (origin % 2 ^ 20) * 2 ^ 24 + sid % 2 ^ 24

/-- The counter of a draw: step index and element index (R127). -/
def genCtr (step elem : Nat) : Nat := (step % 2 ^ 48) * 2 ^ 16 + elem % 2 ^ 16

/-- The 16-bit draw of R125. -/
def draw16 (site origin sid step elem : Nat) : Nat := genDraw (genKey site origin sid) (genCtr step elem) / 2 ^ 16

/-- The global logical unit index of a unit site's origin (R127). -/
def unitOrigin (c u : Nat) : Nat := ((c / 128) * 8 + u / 8) * 1024 + ((c % 128) * 8 + u % 8)

-- Blocks as bytes (R120, R121, R133) ---------------------------------------------------------------------

/-- The bytes of a block: header and payload (R120, R133). -/
def blkBytes (b : Blk) : List Byte :=
  let head := leBytes 1 (if isZero b then 0 else b.exp) ++ leBytes 1 (flagsByte b)
  if isZero b then head
  else head ++ (match b.fmt with
    | .a8 => (List.range 32).flatMap (fun i => leBytes 1 (tc 8 (manAt b i)))
    | .a4 => (List.range 16).map (fun i => BitVec.ofNat 8 (tc 4 (manAt b (2 * i)) + 16 * tc 4 (manAt b (2 * i + 1))))
    | .zb => []
    | .p24 => (List.range 32).flatMap (fun i => leBytes 3 (tc 24 (manAt b i)))
    | .p16b => (List.range 32).flatMap (fun i => leBytes 2 (tc 16 (manAt b i))))

/-- A block of a format from its bytes (R120, R121, R133). -/
def blkFrom (fmt : BlkFmt) (bs : List Byte) : Blk :=
  let fl := leAt bs 1 1
  let man : List Int := match fmt with
    | .a8 => (List.range 32).map (fun i => sx 8 (leAt bs (2 + i) 1))
    | .a4 => (List.range 32).map (fun i => sx 4 (leAt bs (2 + i / 2) 1 / 16 ^ (i % 2)))
    | .zb => []
    | .p24 => (List.range 32).map (fun i => sx 24 (leAt bs (2 + 3 * i) 3))
    | .p16b => (List.range 32).map (fun i => sx 16 (leAt bs (2 + 2 * i) 2))
  { fmt := fmt, exp := leAt bs 0 1, zb := bit fl 2, sat := bit fl 0, ufl := bit fl 1, nh := bit fl 3, man := man, cause := 0,
    pt := 0, sid := 0, bslot := 0 }

/-- Bytes padded with zeros to whole 64 B lines. -/
def padLines (bs : List Byte) : List Byte := bs ++ List.replicate ((64 - bs.length % 64) % 64) 0

end Sys2Proof.Machine
end

