-- ==== Sys2Proof/Machine/Operands.lean ====
section
/-! DEFINITION. Number formats and their conversions: dyadic values, the two roundings (R124–R126), blocks
(R120–R123, R133), partial sums (R134–R136), alignment (R137–R139), requantisation and curves (R143–R147),
edge formats (R148–R150). -/

namespace Sys2Proof.Machine

/-- An exact value m × 2^e. -/
structure Dy where
  m : Int
  e : Int
deriving DecidableEq, Repr

/-- m × 2^s rounded to the nearest integer, ties to even (R124). -/
def shiftRne (m : Int) (s : Int) : Int :=
  if 0 ≤ s then m * (2 ^ s.toNat : Nat) else rneDiv m (2 ^ (-s).toNat)

/-- m × 2^s rounded down. -/
def shiftFloor (m : Int) (s : Int) : Int :=
  if 0 ≤ s then m * (2 ^ s.toNat : Nat) else m / ((2 ^ (-s).toNat : Nat) : Int)

/-- m × 2^s rounded stochastically by a 16-bit draw (R125). -/
def shiftSr (m : Int) (s : Int) (u : Nat) : Int :=
  let f := shiftFloor m s
  let r := shiftFloor m (s + 16) - f * 65536
  if (u : Int) < r then f + 1 else f

/-- m × 2^s rounded by rne, or by sr where a draw is given. -/
def shiftBy (sr : Option Nat) (m : Int) (s : Int) : Int :=
  match sr with
  | none => shiftRne m s
  | some u => shiftSr m s u

/-- Whether m × 2^s is not an integer: a shift that discards a 1 bit (R138). -/
def shiftLoses (m : Int) (s : Int) : Bool := decide (s < 0 ∧ m % ((2 ^ (-s).toNat : Nat) : Int) ≠ 0)

/-- Whether |m| × 2^em ≤ q × 2^eq. -/
def absLe (m : Int) (em : Int) (q : Nat) (eq : Int) : Bool :=
  if eq ≤ em then decide (m.natAbs * 2 ^ (em - eq).toNat ≤ q) else decide (m.natAbs ≤ q * 2 ^ (eq - em).toNat)

/-- A dyadic value compared: a ≤ b. -/
def dyLe (a b : Dy) : Bool :=
  if a.e ≤ b.e then decide (a.m ≤ b.m * (2 ^ (b.e - a.e).toNat : Nat))
  else decide (a.m * (2 ^ (a.e - b.e).toNat : Nat) ≤ b.m)

/-- The sum of two dyadic values, exact. -/
def dyAdd (a b : Dy) : Dy :=
  if a.e ≤ b.e then ⟨a.m + b.m * (2 ^ (b.e - a.e).toNat : Nat), a.e⟩
  else ⟨a.m * (2 ^ (a.e - b.e).toNat : Nat) + b.m, b.e⟩

/-- The product of two dyadic values, exact. -/
def dyMul (a b : Dy) : Dy := ⟨a.m * b.m, a.e + b.e⟩

/-- The smallest exponent from `a` up to 255 that a test accepts. -/
def firstExp (a : Nat) (p : Nat → Bool) : Option Nat := ((List.range (256 - a)).map (· + a)).find? p

/-- The greatest P24 and P16B magnitudes (R133). -/
def p24Max : Int := 8388607
def p16Max : Int := 32767

/-- The greatest mantissas of A8 and A4 (R143, R144). -/
def aMax (a4 : Bool) : Nat := if a4 then 7 else 127

/-- NH: every mantissa lies in −8 to +7 (R121). -/
def narrow (l : List Int) : Bool := l.all (fun a => decide (-8 ≤ a ∧ a ≤ 7))

/-- Clamp, with whether it changed anything (R126). -/
def clampAll (lo hi : Int) (l : List Int) : List Int × Bool :=
  (l.map (clampI lo hi), l.any (fun a => decide (a < lo ∨ hi < a)))

/-- Finish an A8 or A4 block from rounded mantissas (R143 steps 4 and 5, R145). -/
def finishA (a4 : Bool) (E : Nat) (rounded : List Int) (ws : List Int) : Blk :=
  let hi : Int := aMax a4
  let (as, sat) := clampAll (-hi - 1) hi rounded
  let ufl := (as.zip ws).any (fun (a, w) => decide (a = 0 ∧ w ≠ 0))
  if as.all (· == 0) then zeroBlk (if a4 then .a4 else .a8) ufl 0 0 0 0
  else { fmt := if a4 then .a4 else .a8, exp := E, zb := false, sat := sat, ufl := ufl, nh := !a4 && narrow as,
         man := as, cause := 0, pt := 0, sid := 0, bslot := 0 }

/-- The exponent of the DYN rule for values ws × 2^ew (R144). -/
def dynExp (a4 : Bool) (ws : List Int) (ew : Int) : Nat :=
  (firstExp 0 (fun E => ws.all (fun w => absLe w ew (aMax a4) ((E : Int) - 127)))).getD 255

/-- Values ws × 2^ew into one A8 or A4 block: exponent fixed or dynamic, rounded by the draw of each
element or to nearest (R143 steps 2 to 5). -/
def toA (a4 : Bool) (fix : Option Nat) (ws : List Int) (ew : Int) (sr : Nat → Option Nat) : Blk :=
  let E := fix.getD (dynExp a4 ws ew)
  let as := ws.zipIdx.map (fun (w, i) => shiftBy (sr i) w (ew + 127 - (E : Int)))
  finishA a4 E as ws

/-- A curve's output code o for an input m × 2^e (R147): o × 2^(eout − 135) is the value. -/
def curveAt (seg : Nat → Word) (ein : Nat) (m : Int) (e : Int) : Int :=
  let t := clampI (-32768) 32767 (shiftFloor m (e + 127 - (ein : Int)))
  let i := ((t + 32768) / 256).toNat
  let f := (t + 32768) % 256
  sx 16 (getF (seg i) 15 0) * 256 + sx 16 (getF (seg i) 31 16) * f

/-- A format descriptor (R140). -/
structure Desc where
  layer  : Nat
  split  : Bool
  alnSr  : Bool
  curve  : Nat
  outSr  : Bool
  efix   : Nat
  fix    : Bool
  owidth : Nat
deriving DecidableEq, Repr

/-- The descriptor held in a CLU_FMD register (R140). -/
def descOf (w : Word) : Desc :=
  { layer := getF w 31 24, split := getB w 22, alnSr := getF w 21 20 == 1, curve := getF w 19 18,
    outSr := getF w 17 16 == 1, efix := getF w 15 8, fix := getF w 5 4 == 1, owidth := getF w 1 0 }

/-- Requantise one P24 block under a descriptor (R143–R147); `curve` gives a table's EIN, EOUT and segments. -/
def requant (d : Desc) (curve : Option (Nat × Nat × (Nat → Word))) (b : Blk) (sr : Nat → Option Nat) : Blk :=
  let vs := (List.range 32).map (manAt b)
  let e : Int := (b.exp : Int) - 127
  let (ws, ew) := match curve with
    | none => (vs, e)
    | some (ein, eout, seg) => (vs.map (fun m => curveAt seg ein m e), (eout : Int) - 135)
  toA (d.owidth == 2) (if d.fix then some d.efix else none) ws ew (fun i => if d.outSr then sr i else none)

/-- A plane's parameter set (R119). -/
structure ParamSet where
  s16  : List Nat
  bias : List Int
  eb   : Nat
deriving DecidableEq, Repr

/-- The parameter set of a plane never loaded. -/
def ParamSet.empty : ParamSet := { s16 := [], bias := [], eb := 0 }

/-- The scale stage for one group of 32 columns: y in 1/8 LSB, range index k, level step
(−1)^neg × 2^stepexp, the read's exponent (R134). -/
def scaleGroup (p : ParamSet) (g : Nat) (y8 : List Int) (k : Nat) (neg : Bool) (stepexp : Int) (ea : Nat) : Blk :=
  let cols := (List.range 32).map (fun i =>
    let c := 32 * g + i
    let s16 := nth 0 p.s16 c
    let m := (if neg then -1 else 1) * nth 0 y8 i * sx 8 (fld s16 7 0)
    let e : Int := -3 + 2 - k + stepexp + (fld s16 15 8 : Nat) - 134 + (ea : Int) - 127
    (m, e, nth 0 p.bias c))
  let at_ (E : Nat) : List Int := cols.map (fun (m, e, b) => shiftRne m (e + 127 - (E : Int)) + shiftRne b ((p.eb : Int) - E))
  let fits (E : Nat) : Bool := (at_ E).all (fun M => decide (-p24Max ≤ M ∧ M ≤ p24Max))
  let found := firstExp p.eb fits
  let E := found.getD 255
  let (ms, _) := clampAll (-p24Max) p24Max (at_ E)
  let exact0 := cols.map (fun (m, e, b) => decide ((dyAdd ⟨m, e⟩ ⟨b, (p.eb : Int) - 127⟩).m ≠ 0))
  let ufl := (ms.zip exact0).any (fun (M, nz) => decide (M = 0) && nz)
  if ms.all (· == 0) then zeroBlk .p24 ufl 0 0 0 0
  else { fmt := .p24, exp := E, zb := false, sat := found.isNone, ufl := ufl, nh := false, man := ms,
         cause := 0, pt := 0, sid := 0, bslot := 0 }

/-- Narrow a P24 block to P16B (R135). -/
def narrowP16 (b : Blk) (sr : Nat → Option Nat) : Blk :=
  if isZero b then { takeBlk b with fmt := .p16b }
  else
    let at_ (s : Nat) := b.man.zipIdx.map (fun (m, i) => shiftBy (sr i) m (-(s : Int)))
    let s := ((List.range 24).find? (fun s => (at_ s).all (fun M => decide (-p16Max ≤ M ∧ M ≤ p16Max)))).getD 24
    let s' := if 255 < b.exp + s then 255 - b.exp else s
    let (ms, sat) := clampAll (-p16Max) p16Max (at_ s')
    let ufl := b.ufl || (ms.zip b.man).any (fun (M, m) => decide (M = 0 ∧ m ≠ 0))
    if ms.all (· == 0) then { zeroBlk .p16b ufl b.cause b.pt b.sid b.bslot with fmt := .p16b }
    else { b with fmt := .p16b, exp := b.exp + s', sat := b.sat || sat, ufl := ufl, nh := false, man := ms }

/-- Widen a P16B block to P24, exactly (R135). -/
def widenP24 (b : Blk) : Blk := if b.fmt = .p16b then { b with fmt := .p24 } else b

/-- The sum of operand blocks, element by element (R136), with the number of alignment-loss events. -/
def reduceBlks (ops : List Blk) (sr : Nat → Option Nat) : Blk × Nat :=
  let live := (ops.map widenP24).filter (fun b => !isZero b)
  let emax := live.foldl (fun a b => max a b.exp) 0
  let emin := live.foldl (fun a b => min a b.exp) 255
  let elo := max emin (emax - 24)
  let loss := (live.filter (fun b => decide (b.exp < elo))).length
  let sums := (List.range 32).map (fun i => sumI (live.map (fun b => shiftRne (manAt b i) ((b.exp : Int) - elo))))
  let exact0 := (List.range 32).map (fun i =>
    decide ((live.foldl (fun a b => dyAdd a ⟨manAt b i, b.exp⟩) (⟨0, 0⟩ : Dy)).m ≠ 0))
  let at_ (E : Nat) := sums.zipIdx.map (fun (m, i) => shiftBy (sr i) m ((elo : Int) - E))
  let found := firstExp elo (fun E => (at_ E).all (fun M => decide (-p24Max ≤ M ∧ M ≤ p24Max)))
  let E := found.getD 255
  let (ms, _) := clampAll (-p24Max) p24Max (at_ E)
  let ufl := (ms.zip exact0).any (fun (M, nz) => decide (M = 0) && nz)
  let b := if live.isEmpty || ms.all (· == 0) then zeroBlk .p24 (!live.isEmpty && ufl) 0 0 0 0
    else { fmt := .p24, exp := E, zb := false, sat := found.isNone, ufl := ufl, nh := false, man := ms,
           cause := 0, pt := 0, sid := 0, bslot := 0 }
  (b, loss)

/-- A read's input rows aligned to one exponent (R137): the rows, EA, and the alignment-loss events (R138). -/
def alignRows (half : List Blk) (sr : Nat → Option Nat) : List Int × Nat × Nat :=
  let live := half.filter (fun b => !isZero b)
  let ea := live.foldl (fun a b => max a b.exp) 0
  let rows := (half.zipIdx).flatMap (fun (b, j) => (List.range 32).map (fun i =>
    if isZero b then 0 else shiftBy (sr (32 * j + i)) (manAt b i) ((b.exp : Int) - ea)))
  let loss := (live.filter (fun b => (List.range 32).any (fun i => shiftLoses (manAt b i) ((b.exp : Int) - ea)))).length
  (rows, ea, loss)

/-- Whether a read applies four bit-planes: every input block that is not a zero block is A4 (R55). -/
def readA4 (half : List Blk) : Bool :=
  let live := half.filter (fun b => !isZero b)
  !live.isEmpty && live.all (fun b => decide (b.fmt = .a4))

/-- Weight of a bit-plane (R54, R55). -/
def bpWeight (a4 : Bool) (b : Nat) : Int :=
  if a4 then (if b = 3 then -8 else (2 ^ b : Nat)) else (if b = 7 then -128 else (2 ^ b : Nat))

/-- Bit b of a row's input in two's complement. -/
def rowBit (x : Int) (b : Nat) : Bool := bit (tc 8 x) b

-- Edge formats ------------------------------------------------------------------------------

/-- A finite floating-point code as an exact value, or none for NaN and infinity (R148–R150).
`ew` exponent bits, `mw` mantissa bits, `e4m3` for the format without infinity. -/
def fpVal (ew mw : Nat) (e4m3 : Bool) (v : Nat) : Option Dy :=
  let s : Int := if bit v (ew + mw) then -1 else 1
  let e := fld v (ew + mw - 1) mw
  let m := v % 2 ^ mw
  let bias : Int := (2 ^ (ew - 1) : Nat) - 1
  let top := 2 ^ ew - 1
  if e = top ∧ (!e4m3 ∨ m = 2 ^ mw - 1) then none
  else if e = 0 then some ⟨s * m, 1 - bias - mw⟩
  else some ⟨s * ((2 ^ mw + m : Nat) : Int), (e : Int) - bias - mw⟩

/-- The value of a BF16, FP32, FP8 E4M3 or FP8 E5M2 code (R148). -/
def bf16Val (v : Nat) : Option Dy := fpVal 8 7 false v
def fp32Val (v : Nat) : Option Dy := fpVal 8 23 false v
def e4m3Val (v : Nat) : Option Dy := fpVal 4 3 true v
def e5m2Val (v : Nat) : Option Dy := fpVal 5 2 false v

/-- The number of bits of a natural number. -/
def bitLen (n : Nat) : Nat := if n = 0 then 0 else n.log2 + 1

/-- A dyadic value rounded to nearest, ties to even, into a floating-point format, saturating at the
code `maxCode` of its largest finite value (R148): the code, and whether it saturated. -/
def fpRound (ew mw maxCode : Nat) (d : Dy) : Nat × Bool :=
  if d.m = 0 then (0, false)
  else
    let bias : Int := (2 ^ (ew - 1) : Nat) - 1
    let emin : Int := 1 - bias
    let a := d.m.natAbs
    let top : Int := d.e + bitLen a - 1
    let ex := max top emin
    let q := (shiftRne (a : Int) (d.e - (ex - mw))).toNat
    let sgn := if d.m < 0 then 2 ^ (ew + mw) else 0
    -- q counts units of 2^(ex − mw); a carry past 2^(mw+1) moves the exponent by one
    let (q, ex) := if q = 2 ^ (mw + 1) then (2 ^ mw, ex + 1) else (q, ex)
    let code := if q < 2 ^ mw then q else ((ex + bias).toNat) * 2 ^ mw + (q - 2 ^ mw)
    if maxCode < code then (sgn + maxCode, true)
    else if q = 0 then (0, false) else (sgn + code, false)

/-- Rounding into the four edge formats; the largest finite codes are those of R148. -/
def toBf16 (d : Dy) : Nat := (fpRound 8 7 0x7F7F d).1
def toFp32 (d : Dy) : Nat := (fpRound 8 23 0x7F7FFFFF d).1
def toE4m3 (d : Dy) : Nat := (fpRound 4 3 0x7E d).1
def toE5m2 (d : Dy) : Nat := (fpRound 5 2 0x7B d).1

/-- A block's element i as an exact value (R120, R133). -/
def blkVal (b : Blk) (i : Nat) : Dy := ⟨manAt b i, (b.exp : Int) - 127⟩

/-- Dyadic values brought to one common exponent. -/
def common (ds : List Dy) : List Int × Int :=
  let e := ds.foldl (fun a d => if d.m = 0 then a else min a d.e) 0
  (ds.map (fun d => if d.m = 0 then 0 else d.m * (2 ^ (d.e - e).toNat : Nat)), e)

/-- Exact values into one A8 block by the DYN rule, rne (R148). -/
def dysToA8 (ds : List Dy) : Blk :=
  let (ws, e) := common ds
  toA false none ws e (fun _ => none)

end Sys2Proof.Machine
end

