-- ==== Sys2Proof/Machine/Fp.lean ====
section
/-! DEFINITION. FP32 arithmetic of the Stove (R247, R248): every operation is exact and then rounded to nearest even,
saturating at the largest finite value; exponential and square root included. -/

namespace Sys2Proof.Machine

/-- An FP32 value, and whether an operation on the way to it saturated (R248). -/
structure Fp where
  v   : Dy
  sat : Bool
deriving DecidableEq, Repr

/-- An exact value rounded to FP32. -/
def fpR (d : Dy) (sat : Bool) : Fp :=
  let (c, o) := fpRound 8 23 0x7F7FFFFF d
  { v := (fp32Val c).getD ⟨0, 0⟩, sat := sat || o }

/-- Zero. -/
def fpZero : Fp := { v := ⟨0, 0⟩, sat := false }

/-- The value of an FP32 code; a NaN or an infinity, which never enters (R149, R150), reads as zero. -/
def fpOf (w : Word) : Fp := { v := (fp32Val w.toNat).getD ⟨0, 0⟩, sat := false }

/-- The FP32 code of a value. -/
def fpCode (a : Fp) : Nat := toFp32 a.v

/-- The BF16 code of a value. -/
def fpBf16 (a : Fp) : Nat := toBf16 a.v

/-- Negation, exact. -/
def dyNeg (a : Dy) : Dy := ⟨-a.m, a.e⟩

/-- Sum, product and fused multiply-add, each rounded once. -/
def fpAdd (a b : Fp) : Fp := fpR (dyAdd a.v b.v) (a.sat || b.sat)
def fpSub (a b : Fp) : Fp := fpR (dyAdd a.v (dyNeg b.v)) (a.sat || b.sat)
def fpMul (a b : Fp) : Fp := fpR (dyMul a.v b.v) (a.sat || b.sat)
def fpFma (a b c : Fp) : Fp := fpR (dyAdd (dyMul a.v b.v) c.v) (a.sat || b.sat || c.sat)

/-- a ≤ b. -/
def fpLe (a b : Fp) : Bool := dyLe a.v b.v

/-- A non-negative ratio of integers as a dyadic value that rounds as the ratio does: 80 bits and a sticky bit. -/
def ratDy (num den : Nat) : Dy :=
  if den = 0 ∨ num = 0 then ⟨0, 0⟩
  else
    let s := 80 + bitLen den - min (bitLen num) (80 + bitLen den)
    let q := num * 2 ^ s / den
    let r := num * 2 ^ s % den
    ⟨(2 * q + (if r = 0 then 0 else 1) : Nat), -(s : Int) - 1⟩

/-- Quotient, rounded; a quotient by zero, which no operation forms, is zero. -/
def fpDiv (a b : Fp) : Fp :=
  let q := ratDy a.v.m.natAbs b.v.m.natAbs
  let sgn : Int := if (decide (a.v.m < 0)) == (decide (b.v.m < 0)) then 1 else -1
  fpR ⟨sgn * q.m, q.e + a.v.e - b.v.e⟩ (a.sat || b.sat)

/-- The integer square root of m, bit by bit from bit k − 1 down, on top of r. -/
def isqrt (m : Nat) : Nat → Nat → Nat
  | 0, r => r
  | k + 1, r => if (r + 2 ^ k) * (r + 2 ^ k) ≤ m then isqrt m k (r + 2 ^ k) else isqrt m k r

/-- Square root of a non-negative value, rounded. -/
def fpSqrt (a : Fp) : Fp :=
  let n := a.v.m.natAbs
  if n = 0 then fpZero
  else
    -- an even exponent and enough bits
    let k : Nat := 100 + (if (a.v.e % 2 = 0) then 0 else 1)
    let m := n * 2 ^ k
    let r := isqrt m (bitLen m / 2 + 1) 0
    fpR ⟨(2 * r + (if r * r = m then 0 else 1) : Nat), (a.v.e - k) / 2 - 1⟩ a.sat

/-- Fractional bits of the exponential's working. -/
def expBits : Nat := 128

/-- ln 2 × 2^128, to the nearest integer. -/
def ln2Fix : Nat := 235865763225513294137944142764154484399

/-- Taylor terms of e^r for 0 ≤ r < 1 in 2^-128, summed from term k while `fuel` lasts. -/
def expTerms : Nat → Nat → Nat → Nat → Nat
  | 0, _, _, _ => 0
  | fuel + 1, k, r, t => t + expTerms fuel (k + 1) r (t * r / 2 ^ expBits / (k + 1))

/-- e^x, rounded to FP32. The working error is below 2^-100 of the result; e^0 is exactly 1. -/
def fpExp (x : Fp) : Fp :=
  if x.v.m = 0 then { v := ⟨1, 0⟩, sat := x.sat }
  else if dyLe x.v ⟨-110, 0⟩ then { v := ⟨0, 0⟩, sat := x.sat }
  else if dyLe ⟨90, 0⟩ x.v then fpR ⟨1, 200⟩ x.sat
  else
    let f := shiftFloor x.v.m (x.v.e + expBits)
    let n := f / (ln2Fix : Int)
    let r := (f % (ln2Fix : Int)).toNat
    fpR ⟨(expTerms 40 0 r (2 ^ expBits) : Nat), n - expBits⟩ x.sat

/-- The largest of some values; zero where there are none. -/
def fpMax : List Fp → Fp
  | [] => fpZero
  | x :: xs => xs.foldl (fun a b => if fpLe a b then b else a) x

/-- The sum in order (R247). -/
def fpSum (l : List Fp) : Fp := l.foldl fpAdd fpZero

end Sys2Proof.Machine
end

