-- ==== Sys2Proof/Config.lean ====
section
/-! DEFINITION. What an implementation fixes and the spec leaves open: constants without a body, so that no
proof can rest on a value of theirs. -/

namespace Sys2Proof.Config

/-- A value the spec leaves open, fresh for each count of `State.free`. -/
opaque freeWord : Nat → Word

/-- A value the spec leaves open that is the same whenever what it belongs to is done again (R132): one for each list of numbers that names it. -/
opaque freeAt : List Nat → Word

/-- Whether the parameters of a Stove operation descriptor lie within the limits of R245: code and the 31 bytes after it, whose layout the spec
does not give. -/
opaque stvFits : Nat → List Byte → Bool

/-- Verification of a pure ML-DSA-87 signature (R11, FIPS 204): key, message, signature. -/
opaque mldsaVerify : List Byte → List Byte → List Byte → Bool

/-- An ML-DSA-87 signature under a private key kept in the device (R698): message. -/
opaque mldsaSign : List Byte → List Byte

/-- Public key derived from a PUF response (R694). -/
opaque identityKey : List Byte → List Byte

/-- What a compressed block of a zstd frame regenerates (R11, RFC 8878), from the frame's bytes before it and its own: none where it is not
valid. -/
opaque zstdBlock : List Byte → List Byte → Option (List Byte)

/-- The SHA3-512 digest of the ROM (R697). -/
opaque romDigest : List Byte

/-- The SHA3-512 digest of the vendor key set, held in the ROM (R691). -/
opaque keysetDigest : List Byte

/-- The die's PUF response, corrected with the identity record's helper data (R694). -/
opaque pufResponse : List Byte

/-- The identity public key, the vendor endorsement and the vendor key that made it, of the Logbook's identity record (R686, R698). -/
opaque identityPub : List Byte
opaque endorsement : List Byte
opaque endKey : Nat

end Sys2Proof.Config
end

