-- ==== Sys2Proof/Machine/RegTable.lean ====
section
/-! DEFINITION. The register map: pages (R721, R731–R733, R745–R747), and for each register its offset, its
fields, their access codes (R20), reset values and write rules. -/

namespace Sys2Proof.Machine

/-- Access codes (R20). -/
inductive Acc where
  | rw | ro | wo | w1c | w1s | rcl | rwl
deriving DecidableEq, Repr

/-- What a write of a value outside a field's range does, as the field's description says. -/
inductive FRule where
  /-- Every value is taken. -/
  | any
  /-- A value outside the range sets the nearer bound. -/
  | within (lo hi : Nat)
  /-- A value at or above the bound leaves the field unchanged. -/
  | below (n : Nat)
  /-- A two's complement value outside −n to n leaves the field unchanged. -/
  | signedTo (n : Nat)
deriving DecidableEq, Repr

/-- A field of a register. -/
structure Field where
  hi   : Nat
  lo   : Nat
  acc  : Acc
  rst  : Nat
  rule : FRule
deriving DecidableEq, Repr

/-- A register, or an array of `n` alike, `stride` bytes apart. -/
structure Reg where
  off    : Nat
  n      : Nat
  stride : Nat
  fields : List Field
deriving DecidableEq, Repr

namespace RT

/-- Field shorthands, by access code. -/
def rw (hi lo rst : Nat) : Field := ⟨hi, lo, .rw, rst, .any⟩
def ro (hi lo rst : Nat) : Field := ⟨hi, lo, .ro, rst, .any⟩
def wo (hi lo rst : Nat) : Field := ⟨hi, lo, .wo, rst, .any⟩
def w1c (hi lo : Nat) : Field := ⟨hi, lo, .w1c, 0, .any⟩
def w1s (hi lo : Nat) : Field := ⟨hi, lo, .w1s, 0, .any⟩
def rcl (hi lo : Nat) : Field := ⟨hi, lo, .rcl, 0, .any⟩
def rwl (hi lo rst : Nat) : Field := ⟨hi, lo, .rwl, rst, .any⟩
/-- RWL, limited to a range. -/
def rwlIn (hi lo rst a b : Nat) : Field := ⟨hi, lo, .rwl, rst, .within a b⟩
/-- RWL, unchanged by codes at or above a bound. -/
def rwlBelow (hi lo rst n : Nat) : Field := ⟨hi, lo, .rwl, rst, .below n⟩
/-- RWL and two's complement, unchanged by a value outside −n to n. -/
def rwlTo (hi lo n : Nat) : Field := ⟨hi, lo, .rwl, 0, .signedTo n⟩
/-- RW, unchanged by codes at or above a bound. -/
def rwBelow (hi lo rst n : Nat) : Field := ⟨hi, lo, .rw, rst, .below n⟩
/-- One register. -/
def one (off : Nat) (fs : List Field) : Reg := ⟨off, 1, 4, fs⟩
/-- An array of registers. -/
def arr (off n stride : Nat) (fs : List Field) : Reg := ⟨off, n, stride, fs⟩
/-- A 32-bit RW counter. -/
def cnt (off : Nat) : Reg := ⟨off, 1, 4, [rw 31 0 0]⟩
/-- A 32-bit RO word. -/
def roWord (off : Nat) : Reg := ⟨off, 1, 4, [ro 31 0 0]⟩

/-- The common page header (R730–R743). PG_CTRL bits 1 and 0 follow R736. -/
def header : List Reg :=
  [one 0x000 [ro 31 0 0], one 0x004 [ro 21 16 0, ro 2 2 0, ro 1 1 0, ro 0 0 0],
   one 0x008 [rwl 3 3 0, w1s 2 2, ro 1 1 0, ro 0 0 1],
   one 0x00C [ro 3 0 0],
   one 0x010 [w1c 8 8, w1c 7 7, w1c 6 6, w1c 5 5, w1c 4 4, w1c 3 3, w1c 2 2, w1c 1 1, w1c 0 0],
   one 0x014 [rw 8 0 0], one 0x018 [w1s 8 0], cnt 0x01C,
   arr 0x020 4 4 [rwlBelow 17 16 0 3, rwl 8 0 0],
   one 0x030 [wo 31 16 0, wo 1 0 0]]

/-- DIE page (R4, R371, R529–R532, R716, R717). -/
def die : List Reg :=
  [one 0x100 [ro 31 16 0x5A01, ro 15 8 0x41, ro 7 0 0],
   one 0x104 [ro 31 31 0, ro 30 30 0, ro 27 24 1, ro 15 0 0],
   one 0x108 [ro 13 8 0, ro 2 0 0],
   one 0x180 [w1c 23 16, w1c 15 8, w1c 7 0],
   one 0x200 [rwl 15 0 0], one 0x204 [rwlIn 15 0 16 1 65535],
   one 0x208 [rwlIn 31 16 1000 1 65535, rwlIn 3 0 4 1 15],
   one 0x20C [rw 7 0 0], one 0x210 [ro 31 31 0, ro 30 30 0, ro 29 27 0, ro 26 23 0, ro 20 14 0, ro 13 0 0],
   roWord 0x214,
   one 0x220 [rwlIn 23 16 30 1 255, rwlIn 7 4 1 1 8, rwl 0 0 1],
   one 0x224 [w1c 31 16, ro 15 0 0],
   cnt 0x230, cnt 0x234, cnt 0x238, cnt 0x23C, cnt 0x240, cnt 0x244, cnt 0x248, cnt 0x24C,
   roWord 0x250, roWord 0x254]

/-- WHI page 0x001 (R677). -/
def whi : List Reg :=
  [one 0x100 [rwl 0 0 1], one 0x104 [wo 10 0 0], cnt 0x108,
   arr 0x140 7 16 [rcl 31 31, rcl 30 28, rcl 27 12, rcl 10 0],
   arr 0x144 7 16 [wo 10 0 0], arr 0x148 7 16 [rw 2 0 0], arr 0x14C 7 16 [ro 11 0 0],
   arr 0x200 64 4 [ro 31 0 0], arr 0x300 64 4 [ro 31 0 0]]

/-- WHI source pages (R678). -/
def whiSrc : List Reg :=
  [arr 0x100 256 4 [rwl 31 31 0, rwl 26 24 0, rwlBelow 19 16 0 7, rwlIn 7 0 1 1 255],
   arr 0x500 256 4 [rwlIn 15 0 65535 1 65535],
   arr 0x900 256 4 [ro 31 30 0, ro 29 29 0, ro 28 28 0, ro 15 0 0]]

/-- CLK page (R624–R627). -/
def clk : List Reg :=
  [one 0x100 [ro 5 5 0, ro 4 4 0, ro 3 3 0, ro 2 0 3], one 0x104 [ro 23 0 0],
   one 0x108 [rwl 6 6 0, rwl 5 5 0, rwl 4 4 0, rwl 3 0 0], cnt 0x10C, cnt 0x110]

/-- PWR page (R628–R637). -/
def pwr : List Reg :=
  [one 0x100 [rwlIn 7 0 240 10 240], one 0x104 [rwlIn 15 0 34500 10000 34500],
   one 0x108 [ro 31 16 0, ro 15 0 0], one 0x10C [ro 31 16 0, ro 15 0 0],
   one 0x110 [ro 6 4 0, ro 3 3 0, ro 2 2 0, ro 1 1 0, w1c 0 0],
   one 0x114 [ro 25 16 0, rwlIn 9 0 650 500 800],
   one 0x118 [rwlIn 19 16 3 1 15, ro 15 8 110, rwlIn 7 0 100 60 104],
   arr 0x120 8 4 [ro 30 28 0, ro 26 24 0, ro 22 20 0, ro 18 16 0, ro 14 12 0, ro 10 8 0, ro 6 4 0, ro 2 0 0],
   cnt 0x140, cnt 0x144, cnt 0x148, one 0x150 [rw 5 0 0], one 0x154 [ro 31 16 100, ro 15 0 0],
   one 0x160 [ro 27 16 1300, ro 7 0 150]]

/-- LOG page (R719). -/
def log : List Reg := [one 0x100 [ro 3 3 0, ro 2 0 7], roWord 0x104, roWord 0x108]

/-- SEC page (R718). -/
def sec : List Reg :=
  [one 0x100 [ro 31 28 1, ro 27 24 1, ro 23 23 0, ro 22 22 0, ro 21 21 0, ro 20 20 0, ro 19 18 0, ro 15 12 0],
   one 0x104 [ro 31 16 0, ro 15 0 0], roWord 0x108, roWord 0x10C, roWord 0x110,
   arr 0x140 16 4 [ro 31 0 0], one 0x180 [rw 2 0 0], arr 0x1C0 16 4 [ro 31 0 0]]

/-- DZT page (R587, R588). -/
def dzt : List Reg :=
  [one 0x100 [w1s 3 3, rwlBelow 2 1 0 3, rwl 0 0 1], one 0x104 [ro 14 14 0, ro 13 13 0, ro 12 4 0, ro 1 0 0],
   cnt 0x108, cnt 0x10C, cnt 0x110, cnt 0x114, cnt 0x118, cnt 0x11C, cnt 0x120, one 0x124 [ro 31 16 0, ro 15 0 0]]

/-- RLP pages (R487–R489). -/
def rlp : List Reg :=
  [one 0x100 [rwlIn 23 16 10 1 255, w1s 1 1, rwl 0 0 1],
   one 0x104 [ro 29 12 0, ro 11 10 0, ro 9 5 0, ro 2 0 0],
   one 0x108 [ro 31 31 0, ro 13 10 0, ro 9 0 0], roWord 0x10C, roWord 0x110,
   one 0x114 [rwlIn 15 0 1000 1 65535], cnt 0x118, cnt 0x11C, cnt 0x120, cnt 0x124, cnt 0x128, cnt 0x12C]

/-- ETH pages (R490). -/
def eth : List Reg :=
  [one 0x100 [rwl 15 8 0, rwl 1 1 0, rwl 0 0 1], one 0x104 [ro 2 2 0, ro 1 1 0, ro 0 0 0],
   one 0x108 [rwl 31 0 0], one 0x10C [rwl 15 0 0], one 0x110 [rwl 31 0 0], one 0x114 [rwl 15 0 0],
   arr 0x118 4 4 [rwl 31 0 0], one 0x128 [rwlIn 31 16 50 1 65535, rwl 15 0 0x5A1D],
   cnt 0x12C, cnt 0x130, cnt 0x134, roWord 0x138, roWord 0x13C]

/-- STK pages (R391–R396). -/
def stk : List Reg :=
  [one 0x100 [rwlIn 11 8 4 1 15, w1s 0 0],
   one 0x104 [w1c 31 16, ro 11 8 0, ro 7 4 0, ro 3 3 0, ro 2 2 0, ro 1 1 0, ro 0 0 0],
   one 0x108 [w1c 31 24, w1c 23 20, w1c 19 12, w1c 11 0],
   roWord 0x10C, one 0x110 [ro 14 9 0, ro 8 4 0, ro 3 0 0],
   one 0x114 [ro 31 16 0, rwlIn 7 0 8 1 168], one 0x118 [rwl 0 0 0]]

/-- The engine register of every SFS page (R421). -/
def sfsEng : List Reg := [one 0x200 [w1c 31 16, ro 0 0 0]]

/-- SFS0 page, with the loader's registers (R404–R410, R432). -/
def sfs0 : List Reg :=
  [one 0x100 [wo 23 20 15, wo 19 16 15, wo 9 8 0, wo 5 4 0, wo 2 0 0],
   one 0x104 [rw 31 6 0], one 0x108 [rw 7 0 0], one 0x10C [rw 31 6 0], one 0x110 [rw 7 0 0],
   one 0x114 [ro 31 24 0, ro 19 12 0, ro 4 4 0, ro 2 0 0], roWord 0x118, roWord 0x11C, roWord 0x120, roWord 0x124,
   one 0x128 [rwlIn 27 24 2 1 8, rwlIn 23 12 50 1 4095, rwlIn 11 0 100 1 4095],
   one 0x140 [rw 7 0 0], one 0x144 [ro 31 30 0, ro 29 29 0, ro 28 28 0, ro 21 0 0], roWord 0x148, roWord 0x14C,
   arr 0x180 16 4 [ro 31 0 0], one 0x200 [w1c 31 16, ro 0 0 0]]

/-- The sixteen 2-bit recipe selects of an ADM_RCP register (R157). -/
def rcpFields : List Field :=
  [rw 31 30 0, rw 29 28 0, rw 27 26 0, rw 25 24 0, rw 23 22 0, rw 21 20 0, rw 19 18 0, rw 17 16 0,
   rw 15 14 0, rw 13 12 0, rw 11 10 0, rw 9 8 0, rw 7 6 0, rw 5 4 0, rw 3 2 0, rw 1 0 0]

/-- ADM page (R308–R317, R437, R157, R158). -/
def adm : List Reg :=
  [one 0x100 [wo 19 16 0, wo 2 0 0], one 0x104 [rw 31 6 0], one 0x108 [rw 7 0 0],
   one 0x10C [ro 31 31 0, ro 27 24 0, ro 23 16 0], one 0x110 [ro 31 16 0, ro 15 0 0], roWord 0x114,
   one 0x118 [ro 23 16 1, ro 15 8 1, ro 7 0 16], one 0x11C [ro 31 0 0xFF], roWord 0x120,
   one 0x124 [rwlIn 15 0 10700 10700 65535], one 0x128 [rwlIn 15 0 640 0 640],
   one 0x12C [ro 31 16 0, ro 15 0 0], one 0x130 [ro 15 0 0], one 0x134 [rw 15 0 1000],
   arr 0x140 16 4 [ro 31 29 0, w1c 28 28, ro 27 24 0, ro 23 16 0, ro 15 8 0, ro 7 0 0],
   arr 0x180 16 8 [ro 31 0 0], arr 0x184 16 8 [ro 15 0 0],
   arr 0x200 16 4 [ro 31 28 0, ro 25 25 0, ro 24 24 0, ro 8 8 0, rw 0 0 0],
   arr 0x240 16 4 [ro 31 16 0, ro 15 0 0], arr 0x400 16 4 rcpFields,
   one 0x444 [rw 31 16 0, ro 11 4 0, ro 3 0 0]]

/-- TWN page (R553–R555). -/
def twn : List Reg :=
  [one 0x100 [rwl 2 1 0, rwl 0 0 0], one 0x104 [ro 31 28 0, ro 3 0 0], one 0x108 [rwl 31 0 0], one 0x10C [rwl 31 0 0],
   one 0x110 [rwlBelow 13 0 0 11520], one 0x114 [rwlBelow 13 0 0 11520], one 0x118 [rwlBelow 13 0 0 11521],
   one 0x11C [wo 31 8 0, wo 1 0 0], roWord 0x120, roWord 0x124, roWord 0x128, roWord 0x12C]

/-- The layer precision window of the CNT page (R153). -/
def cntLayer : List Reg :=
  [one 0x400 [rw 7 0 0], cnt 0x404, cnt 0x408, cnt 0x40C, cnt 0x410,
   one 0x414 [rw 28 24 0, rw 20 16 0, rw 12 8 0, rw 4 0 0], one 0x418 [w1c 3 3, w1c 2 2, w1c 1 1, w1c 0 0],
   arr 0x420 8 4 [ro 31 0 0]]

/-- CNT page (R684, R153). -/
def cntPage : List Reg :=
  [one 0x100 [rw 1 1 0, rw 0 0 1], one 0x104 [wo 0 0 0], one 0x108 [w1c 31 0], roWord 0x10C, roWord 0x110,
   arr 0x140 32 4 [rw 12 8 0, rw 7 0 0], arr 0x200 32 8 [rw 31 0 0], arr 0x204 32 8 [rw 15 0 0],
   arr 0x300 32 8 [ro 31 0 0], arr 0x304 32 8 [ro 16 16 0, ro 15 0 0]] ++ cntLayer

/-- STRM page (R589). -/
def strm : List Reg :=
  [one 0x100 [rw 3 0 0], one 0x104 [rw 31 6 0], one 0x108 [rw 31 16 0, rw 7 0 0], one 0x10C [rw 31 6 0],
   one 0x110 [rw 31 16 0, rw 7 0 0], one 0x120 [ro 20 0 0], one 0x124 [ro 13 0 0], cnt 0x128, cnt 0x12C,
   one 0x130 [rw 19 0 0], arr 0x140 16 4 [ro 31 0 0]]

/-- PCH page (R369, R370). -/
def pch : List Reg :=
  [arr 0x100 16 4 [ro 31 31 0, ro 21 16 0, ro 15 10 0, ro 9 5 0, ro 4 0 0], arr 0x140 17 4 [rw 31 0 0]]

/-- TOP page (R491–R494, R720). -/
def top : List Reg :=
  [one 0x100 [ro 31 31 0, ro 19 15 0, ro 14 10 0, ro 9 5 0, ro 4 0 0],
   arr 0x140 16 8 [rwl 31 31 0, ro 12 12 0, ro 11 8 0, rwlBelow 7 0 0 254],
   arr 0x144 16 8 [rwl 21 17 0, rwl 16 12 0, rwl 11 6 1, rwl 5 0 1],
   one 0x1C0 [rw 31 0 0], one 0x1C4 [rw 31 0 0], one 0x1C8 [w1c 31 16, ro 2 1 0, ro 0 0 0],
   one 0x200 [rw 14 12 0, rw 11 0 0], one 0x204 [rwl 31 0 0],
   one 0x300 [ro 31 31 0, ro 19 15 0, ro 14 10 0, ro 9 5 0, ro 4 0 0],
   one 0x304 [ro 31 30 0, ro 29 29 0, ro 28 24 0x1F, ro 23 16 0, ro 10 0 0],
   one 0x308 [rwlIn 31 16 1800 1 65535, rwlIn 15 0 200 1 65535], one 0x30C [rw 10 10 0, rw 9 0 0], roWord 0x310]

/-- RGN page (R256). -/
def rgn : List Reg := [arr 0x140 25 4 [ro 16 16 0, ro 9 8 0, ro 7 0 0]]

/-- TRM page (R203–R211). -/
def trm : List Reg :=
  [one 0x100 [rwl 19 16 3, rwlIn 15 8 8 1 255, rwl 3 3 1, rwl 2 2 1, rwl 1 1 1, rwl 0 0 1],
   one 0x104 [ro 31 16 0, ro 15 8 0, ro 1 1 0, ro 0 0 0],
   arr 0x110 8 4 [ro 24 16 0, ro 14 12 0, ro 11 0 0], arr 0x130 8 4 [rwl 23 16 0, rwl 8 0 0],
   one 0x150 [rwlIn 23 16 128 16 255, rwlIn 15 8 3 1 255, rwl 7 0 10],
   one 0x154 [rwlIn 23 16 30 1 30, rwl 15 0 16],
   one 0x158 [wo 23 16 0, wo 14 8 0, wo 3 3 0, wo 2 0 0], cnt 0x15C, cnt 0x160]

/-- SNS page (R655–R664). -/
def sns : List Reg :=
  [one 0x100 [rwl 20 16 11, rwl 15 12 0, rwl 11 10 3, rwl 9 9 0, rwl 8 8 1, w1s 2 2, rwl 1 1 1, rwl 0 0 1],
   one 0x104 [ro 22 16 0, ro 4 4 0, ro 3 3 0, ro 2 2 0, ro 1 1 1, ro 0 0 0],
   one 0x108 [rw 28 24 0, rw 20 16 0, rw 12 8 0, rw 4 0 0],
   one 0x10C [rwlIn 31 24 108 60 110, rwlIn 23 16 64 1 255, rwlIn 15 8 30 1 255, wo 7 7 0, rw 5 4 0, rwl 3 0 15],
   one 0x110 [ro 31 16 0, ro 7 4 0, w1c 3 0],
   arr 0x140 8 4 [rwl 28 24 0, rwl 20 16 0, rwl 12 8 0, rwl 4 0 0],
   arr 0x180 16 4 [rw 10 10 0, rw 9 8 0, rw 7 5 3, rw 4 0 0],
   one 0x1C0 [rw 9 0 0], one 0x1C4 [rw 17 16 0, rw 15 15 0, rw 14 8 0, rw 7 0 0],
   one 0x1D0 [rcl 31 31, rcl 30 29, rcl 28 24, rcl 23 23, rcl 22 21, rcl 16 12, rcl 11 0],
   one 0x1D4 [ro 31 24 0, ro 23 0 0], cnt 0x1D8, arr 0x200 32 4 [ro 31 16 0, ro 15 14 0, ro 11 0 0]]

/-- STV page (R255). -/
def stv : List Reg := [one 0x100 [w1c 31 16, w1c 15 8, ro 2 2 0, ro 1 1 0, ro 0 0 0], cnt 0x104]

/-- RCN page (R684). -/
def rcn : List Reg :=
  [one 0x100 [rw 1 1 0, rw 0 0 1], one 0x108 [w1c 7 0], roWord 0x10C, roWord 0x110,
   arr 0x140 8 4 [rw 12 8 0, rw 7 0 0], arr 0x180 8 8 [rw 31 0 0], arr 0x184 8 8 [rw 15 0 0],
   arr 0x1C0 8 8 [ro 31 0 0], arr 0x1C4 8 8 [ro 16 16 0, ro 15 0 0], arr 0x200 8 4 [ro 31 0 0]]

/-- IVR page (R243, R244). -/
def ivr : List Reg :=
  [one 0x100 [rwl 21 16 0x30, rwl 13 8 0, rw 5 0 0], one 0x104 [ro 9 9 0, ro 8 8 0, ro 5 0 0]]

/-- Cluster pages (R747). -/
def clu : List Reg :=
  [one 0x100 [rwBelow 6 0 0 68], arr 0x180 4 4 [ro 18 16 0, rw 13 12 0, rwBelow 10 8 0 3, rw 5 0 0],
   arr 0x1C0 8 8 [rwl 27 24 0, rwlBelow 22 20 0 7, rwl 19 19 0, rwl 18 16 0],
   arr 0x1C4 8 8 [rwlTo 31 24 30, rwlTo 23 16 30, rwlTo 15 8 30, rwlTo 7 0 30],
   arr 0x200 8 4 [rwl 31 24 0, rwl 22 22 0, rwlBelow 21 20 0 2, rwlBelow 19 18 0 3, rwlBelow 17 16 0 2,
     rwl 15 8 0x7F, rwlBelow 5 4 0 2, rwlBelow 1 0 0 3],
   arr 0x240 2 4 [rwl 15 8 0x7F, rwl 7 0 0x7F], one 0x248 [rw 8 8 0, rw 7 0 0], one 0x24C [rwl 31 16 0, rwl 15 0 0],
   one 0x260 [rw 7 0 0], one 0x264 [rwl 31 0 0], one 0x268 [rwl 31 0 0],
   one 0x26C [rw 4 0 0], one 0x270 [rwl 31 0 0], one 0x274 [rwl 31 0 0],
   one 0x278 [w1c 31 24, w1c 23 16, ro 4 0 0],
   one 0x280 [rwl 24 16 0x1FF, rwl 8 0 0x1FF], one 0x284 [rwl 5 0 8], one 0x288 [w1c 31 31, ro 19 0 0],
   one 0x28C [w1c 31 16, w1c 15 0], roWord 0x290,
   roWord 0x2A0, one 0x2A4 [ro 15 0 0], one 0x2A8 [ro 31 24 0, ro 23 16 0, ro 15 8 0, ro 7 0 0],
   one 0x2AC [ro 31 24 0, ro 23 16 0, ro 15 8 0, ro 7 0 0],
   one 0x2B0 [w1c 31 31, ro 15 9 0, ro 8 8 0, ro 7 7 0, ro 6 6 0, ro 5 5 0, ro 4 4 0, ro 3 3 0, ro 0 0 1],
   one 0x300 [rw 7 0 0], one 0x304 [rwl 31 0 0], one 0x308 [rwl 31 0 0], one 0x30C [rw 10 10 0, rw 9 9 0, rw 7 0 0],
   one 0x310 [rw 31 0 0], one 0x314 [rw 16 16 0, ro 8 8 0, rwlIn 7 0 10 1 255], one 0x318 [ro 4 4 0, ro 3 0 0],
   one 0x31C [w1c 31 24, w1c 23 16, w1c 15 8, w1c 7 0],
   one 0x320 [w1c 11 11, w1c 10 10, w1c 9 9, w1c 8 8, w1c 7 7, w1c 6 6, w1c 5 5, w1c 4 4,
     w1c 3 3, w1c 2 2, w1c 1 1, w1c 0 0],
   one 0x324 [w1c 31 31, ro 16 8 0, ro 7 0 0], roWord 0x328, one 0x32C [ro 15 0 0], arr 0x340 8 4 [ro 31 0 0],
   arr 0x380 2 4 [ro 31 0 0], one 0x388 [ro 3 0 0]]

/-- Unit registers, at unit window offsets from 0x800 (R100–R111, R196–R202). -/
def unit : List Reg :=
  [one 0x800 [ro 18 16 0, ro 15 15 0, ro 13 8 0, ro 6 0 0], one 0x804 [rwl 5 5 1, rwl 4 4 1, rwl 3 2 3, rw 0 0 0],
   one 0x808 [ro 15 12 0, ro 11 11 0, ro 10 10 0, ro 9 9 0, ro 8 8 0, ro 6 4 0, ro 2 0 0],
   one 0x80C [rwl 10 8 0, rwl 6 4 0, rwl 0 0 0], arr 0x810 2 4 [rw 23 16 0x40, rw 15 0 0x0A00],
   one 0x818 [ro 10 8 0, ro 6 4 0, rw 2 0 0],
   one 0x81C [w1c 7 7, w1c 6 6, w1c 5 5, w1c 4 4, w1c 3 3, w1c 2 2, w1c 1 1, w1c 0 0],
   one 0x820 [rw 31 16 0, rw 15 0 0], roWord 0x824, one 0x828 [ro 15 0 0], one 0x82C [ro 31 24 0, ro 16 0 0],
   one 0x830 [rwlIn 20 16 16 4 31, ro 9 9 0, ro 8 2 0, ro 1 1 0, ro 0 0 0], arr 0x834 2 4 [ro 31 0 0],
   arr 0x900 136 4 [ro 13 8 0, ro 5 0 0],
   arr 0xB40 2 4 [ro 31 31 0, ro 25 17 0, ro 13 8 0, ro 7 0 0],
   arr 0xB48 2 4 [ro 29 24 0, ro 21 16 0, ro 13 8 0, ro 5 0 0],
   arr 0xB50 2 4 [ro 23 16 0, ro 15 0 0], arr 0xB58 2 4 [ro 30 24 0, ro 17 16 0, ro 15 0 0],
   one 0xB60 [ro 31 16 0, ro 15 12 0, ro 4 4 0, ro 3 3 0, ro 2 2 0, ro 1 1 0, ro 0 0 0],
   roWord 0xB64, roWord 0xB68, roWord 0xB6C, roWord 0xB70, roWord 0xB74, roWord 0xB78]

end RT

end Sys2Proof.Machine
end

