-- ==== Sys2Proof/Machine/Map.lean ====
section
/-! DEFINITION. Sparse tables: a list of key and value pairs in one canonical form (keys strictly rising, no
entry equal to the default of its key), so that equal tables are equal lists. -/

namespace Sys2Proof.Machine

/-- A sparse table from natural-number keys. -/
abbrev SMap (α : Type) := List (Nat × α)

namespace SMap

/-- The value at a key; `d` where nothing is listed. -/
def get {α : Type} (d : α) : SMap α → Nat → α
  | [], _ => d
  | (k, v) :: m, i => if k = i then v else get d m i

/-- The table without a key. -/
def del {α : Type} : SMap α → Nat → SMap α
  | [], _ => []
  | (k, v) :: m, i => if k = i then del m i else (k, v) :: del m i

/-- Insert before the first greater key. -/
def ins {α : Type} : SMap α → Nat → α → SMap α
  | [], i, x => [(i, x)]
  | (k, v) :: m, i, x => if i < k then (i, x) :: (k, v) :: m else (k, v) :: ins m i x

/-- Set a key; setting it to the default removes the entry. -/
def set {α : Type} [DecidableEq α] (d : α) (m : SMap α) (i : Nat) (x : α) : SMap α :=
  if x = d then del m i else ins (del m i) i x

/-- Change the value at a key. -/
def upd {α : Type} [DecidableEq α] (d : α) (m : SMap α) (i : Nat) (f : α → α) : SMap α :=
  set d m i (f (get d m i))

/-- The listed keys, rising. -/
def keys {α : Type} (m : SMap α) : List Nat := m.map (·.1)

/-- Keys strictly rise from a lower bound. -/
def rising {α : Type} : Nat → SMap α → Bool
  | _, [] => true
  | b, (k, _) :: m => decide (b ≤ k) && rising (k + 1) m

/-- The canonical form, for one default. -/
def wf {α : Type} [DecidableEq α] (d : α) (m : SMap α) : Bool :=
  rising 0 m && m.all (fun e => decide (e.2 ≠ d))

end SMap

end Sys2Proof.Machine
end

