-- ==== Sys2Proof/Machine/State.lean ====
section
/-! DEFINITION. The state of the block, its faults and refusals, and the state after reset. -/

namespace Sys2Proof.Machine

/-- Why a command stops: nothing in this block does. Every command of the spec has an effect, so no constructor is needed. -/
inductive Fault where
deriving DecidableEq, Repr

/-- Why a command has no meaning here. -/
inductive Refusal where
  /-- Raised by an arm of `exec` not modelled yet, naming the table's mnemonic. Safe: the model stops. -/
  | notModelled (mnemonic : String)
deriving DecidableEq, Repr

-- Units (chapter 2) ---------------------------------------------------------------------------

/-- The plane states of R52. -/
inductive PlaneSt where
  | blank | programming | checking | resident | faulted
deriving DecidableEq, Repr

/-- Codes of UNIT_STAT.PnST (R102). -/
def PlaneSt.code : PlaneSt → Nat
  | .blank => 0 | .programming => 1 | .checking => 2 | .resident => 3 | .faulted => 4

/-- For whom a plane is being programmed: the loader (R424), a spare being loaded (R95), a refresh (R185). -/
inductive PgmKind where
  | load | spare | refresh
deriving DecidableEq, Repr

/-- One row of a plane: the levels of its 136 cells, and the four residues e[g] (R43, R74). -/
structure Row where
  levels : List Nat
  res    : List Int
deriving DecidableEq, Repr

/-- The row of a plane never programmed: level 0 everywhere, residues 0. -/
def Row.empty : Row := { levels := [], res := [] }

/-- What the Logbook keeps of a plane since its last commit (R428, R438): the tolerance word, format index and JOIN committed for it. -/
structure Committed where
  tol  : Word
  fmt  : Nat
  join : Bool
deriving DecidableEq, Repr

/-- One plane of a unit: its state, cells and parameter set (R43, R52, R119), the programming in progress
(R82, R83: rows to program, pulses of the row, verify targets of the four levels in 0.001 G_U, whether a refresh gave its slot up for a
while and at which row, and whether it ends with its row), the reference accumulators of R174 with sums in 1/8 LSB, the first window of a
pair and the disagreeing pairs so far (R175, R178), and in the Logbook whether its last start lacks a commit (R86) and its last commit. -/
structure Plane where
  st       : PlaneSt
  rows     : SMap Row
  par      : ParamSet
  goal     : SMap Row
  kind     : PgmKind
  pulses   : Nat
  retried  : Bool
  accDev   : Int
  accIdeal : Int
  window   : Option Int
  disagree : Nat
  targets  : List Int
  paused   : Option Nat
  yields   : Bool
  started  : Bool
  logged   : Option Committed
deriving DecidableEq, Repr

/-- A plane never programmed. -/
def Plane.empty : Plane :=
  { st := .blank, rows := [], par := ParamSet.empty, goal := [], kind := .load, pulses := 0, retried := false,
    accDev := 0, accIdeal := 0, window := none, disagree := 0, targets := [], paused := none, yields := false,
    started := false, logged := none }

/-- The trims in force over a read (R168–R170): the drive code EFF, and the UNIT_CTRIM words of the columns whose trims are not zero. -/
structure Trims where
  eff  : Int
  cols : SMap Nat
deriving DecidableEq, Repr

/-- A read in progress (R53–R76): its action, its input half, the charge it still waits for (R611, in
0.1 µA), and the trims that it took at its start (R170). -/
structure ReadOp where
  plane : Nat
  range : Nat
  dest  : Nat
  daddr : Nat
  pair  : Nat
  wide  : Bool
  half  : List Blk
  step  : Nat
  need  : Nat
  trims : Trims
deriving DecidableEq, Repr

/-- A measurement set of the trim engine (R176–R179): chunks taken of the current take, the takes complete so
far, retry pairs used, consecutive failures, and whether it is stale. -/
structure CalSet where
  chunks  : List (List Int)
  takes   : List (List Int)
  retries : Nat
  fails   : Nat
  stale   : Bool
deriving DecidableEq, Repr

/-- A set with nothing measured. -/
def CalSet.empty : CalSet := { chunks := [], takes := [], retries := 0, fails := 0, stale := false }

/-- One physical slot of a cluster: its planes, input halves (R53), read in progress, role (R95, R97–R99),
Damper holding (R613, in 0.1 µA) and calibration sets, keyed 0 for COL, 1 + p for REF, 3 + p for RES, 5 + p for
tracking. -/
structure USlot where
  p0        : Plane
  p1        : Plane
  filling   : List Blk
  half      : List Blk
  hasRead   : Bool
  cur       : Option ReadOp
  serves    : Option Nat
  underTest : Bool
  fenced    : Bool
  holding   : Nat
  lastCause : Nat
  cal       : SMap CalSet
deriving DecidableEq, Repr

/-- A slot at reset: slots 0–63 serve their own logical index (R9), the spares none. -/
def USlot.fresh (slot : Nat) : USlot :=
  { p0 := Plane.empty, p1 := Plane.empty, filling := [], half := [], hasRead := false, cur := none,
    serves := if slot < 64 then some slot else none, underTest := false, fenced := false, holding := 0,
    lastCause := 0, cal := [] }

-- Clusters (chapters 3, 5, 6, 7) ----------------------------------------------------------------

/-- A reduction entry that accumulates: contributions from units, from other clusters and the residual
(R218–R221), in arrival order with their senders (`anon` where none is named), with the arming step's identity. -/
structure Armed where
  entry : Nat
  units : Nat
  rems  : Nat
  got   : List (List Blk)
  srcs  : List Nat
  step  : Nat
  wide  : Bool
deriving DecidableEq, Repr

/-- An arrival kept in the replay ring with its side record (R229): the KIND and SUB it was delivered by, its blocks,
the recipe and the layer of its consumer; `src` names the sender (source cluster × 64 + unit), and `alien` marks a block
from outside the pitch (R504). -/
structure RingRec where
  kind   : Nat
  sub    : Nat
  src    : Nat
  alien  : Bool
  blks   : List Blk
  recipe : Nat
  layer  : Nat
deriving DecidableEq, Repr

/-- What the replay ring holds of one step, by the step that consumes it (R229, R231). -/
structure RingStep where
  step  : Nat
  recs  : List RingRec
deriving DecidableEq, Repr

/-- Position in a stream's expansion (R262): word, repetition, open loops and iterations left. -/
structure SeqPos where
  w    : Nat
  rep  : Nat
  opn  : List (Nat × Nat)
  step : Nat
  fin  : Bool
deriving DecidableEq, Repr

/-- The start of an expansion. -/
def SeqPos.start : SeqPos := { w := 0, rep := 0, opn := [], step := 0, fin := false }

/-- A gate message held by a cluster: its step and the recipe samples it carries (R277, R288). -/
structure GateMsg where
  step    : Nat
  samples : List (Nat × Nat)
deriving DecidableEq, Repr

/-- A message sent and not yet acknowledged by all its targets, its KIND, when it was sent and whether its stall
was reported (R269, R338, R343). -/
structure Sent where
  id      : Nat
  entry   : Nat
  step    : Nat
  kind    : Nat
  targets : List Nat
  blks    : List Blk
  since   : Nat
  late    : Bool
deriving DecidableEq, Repr

/-- A Pantry line (R226): a block, or the first line of a P24 or P16B block; or the second line of such a block. -/
inductive PLine where
  | blk (b : Blk)
  | tail (b : Blk)
deriving DecidableEq, Repr

/-- A cleared line: a zero block with plane tag 0, stream ID 0 and cause PASS (R226). -/
def PLine.clear : PLine := .blk (zeroBlk .a8 false 0 0 0 0)

/-- An output of a unit or of a reduction entry that waits for room in a unit's filling half (R53, R214): its sender, the unit and its blocks. -/
structure Stuck where
  who  : Nat
  unit : Nat
  blks : List Blk
deriving DecidableEq, Repr

/-- A cluster: tables (R212–R218, R354), routing banks (R331–R333), curve segments (R146), Pantry (R226),
replay ring, accumulating entries, step machinery (R258–R293), recipes (R159), precision counts (R151),
outgoing messages and their numbers, fence (R345), the outstanding actions of the current step, multicasts its router holds (source,
number, input, branches left, R342), the slots that left a fence or a test with the measurement sets still due to them (`recal`, R180), the
slots given a chunk in the current step (`chunked`, R177), the spares that stand in for a refresh (`refr`, R185), and the outputs that wait for
room in a unit's filling half (`stuck`); whether the step in progress is executed again (`again`, R503), the recipes in force in the steps begun
(`rcpLog`, R160), failures not yet reported, each with its step, origin and cause (`fails`, R499), and the steps that the replay ring lost
(`lost`, R232). -/
structure Cluster where
  uat       : SMap Nat
  red       : SMap Nat
  rte       : SMap Nat
  routing   : SMap Nat
  curves    : SMap Word
  pantry    : SMap PLine
  word      : Nat
  ring      : List RingStep
  armed     : List Armed
  waitArm   : List Nat
  tokens    : SMap Nat
  gates     : List GateMsg
  lane      : SeqPos
  next      : Nat
  busy      : Bool
  acts      : List Nat
  gap       : Bool
  recipes   : SMap Nat
  counts    : SMap Nat
  sent      : List Sent
  msgNo     : Nat
  seen      : List (Nat × Nat)
  bank      : Nat
  bankNext  : Option Nat
  fenceReq  : Bool
  fenced    : Bool
  replayTo  : Option Nat
  replayGen : Nat
  hold      : Bool
  floor     : Nat
  recal     : List (Nat × List Nat)
  store     : SMap Nat
  lbase     : Nat
  loaded    : Nat
  laneWait  : Bool
  gapSeq    : SeqPos
  hist      : List (Nat × SeqPos × SeqPos × Nat)
  peak      : Nat
  tokWait   : List (Nat × Nat × Nat)
  tokSent   : List Nat
  log       : List (Nat × Nat × Bool)
  alien     : List Nat
  mcast     : List (Nat × Nat × Nat × List Nat)
  chunked   : List Nat
  refr      : List Nat
  stuck     : List Stuck
  again     : Bool
  rcpLog    : List (Nat × SMap Nat)
  fails     : List (Nat × Nat × Nat)
  lost      : List Nat
  held      : List (Nat × PMsg)
  umDown    : List (Nat × Nat × Nat)
  down      : List (List Nat)
deriving DecidableEq, Repr

/-- A sender that is not named. -/
def anon : Nat := 2 ^ 20

/-- A cluster with no image. -/
def Cluster.empty : Cluster :=
  { uat := [], red := [], rte := [], routing := [], curves := [], pantry := [], word := 0, ring := [], armed := [],
    waitArm := [], tokens := [], gates := [], lane := SeqPos.start, next := 0, busy := false, acts := [], gap := false,
    recipes := [], counts := [], sent := [], msgNo := 0, seen := [], bank := 0, bankNext := none, fenceReq := false,
    fenced := false, replayTo := none, replayGen := 0, hold := false, floor := 0, recal := [], store := [],
    lbase := 0, loaded := 0, laneWait := false, gapSeq := SeqPos.start, hist := [], peak := 0, tokWait := [], tokSent := [],
    log := [], alien := [], mcast := [], chunked := [], refr := [], stuck := [],
    again := false, rcpLog := [], fails := [], lost := [], held := [], umDown := [], down := [] }

-- Regions (chapters 4, 5, 6, 14, 15) -------------------------------------------------------------

/-- A programming request: the unit's key, the plane, and for whom (R85). -/
structure PgmReq where
  unit  : Nat
  plane : Nat
  kind  : PgmKind
deriving DecidableEq, Repr

/-- Who waits for a Damper grant (R611): a unit's read, a Stove pipe, or a step of the regulator. -/
inductive Asker where
  | unit (key : Nat)
  | stove (int8 : Bool)
  | regulator
deriving DecidableEq, Repr

/-- A waiting Damper request (R614, R765): the whole charge asked for and what has been granted, in 0.1 µA. -/
structure DReq where
  who   : Asker
  whole : Nat
  got   : Nat
deriving DecidableEq, Repr

/-- A command to the trim engine that has not completed (R209, R210): the task, local cluster, slot and plane, the measurement sets that it
still waits for (slot, set), and whether a refresh has begun. -/
structure TrimCmd where
  op      : Nat
  cluster : Nat
  slot    : Nat
  plane   : Nat
  left    : List (Nat × Nat)
  begun   : Bool
deriving DecidableEq, Repr

/-- A queued sense result (R652). -/
structure SnsRes where
  src   : Nat
  entry : Nat
  nosrc : Bool
  gain  : Nat
  ch    : Nat
  code  : Nat
  seqid : Nat
  time  : Nat
deriving DecidableEq, Repr

/-- The sense converter of a region: conversion slots since the mode began, next regular, injected and
programmable entries, next diode, run counts, result queue, the regular entries latched for this pass, and the
triggers of the run in progress (R642–R653); the DAC code that the entry in progress began with (R650), and when the injected run began (R648). -/
structure Sns where
  slotNo  : Nat
  regPos  : Nat
  injPos  : Nat
  progPos : Nat
  diode   : Nat
  runs    : List Nat
  queue   : List SnsRes
  pass    : List Nat
  cause   : Nat
  ovfUntil : Nat
  dac     : Nat
  injAt   : Nat
deriving DecidableEq, Repr

/-- A sense converter at reset. -/
def Sns.empty : Sns :=
  { slotNo := 0, regPos := 0, injPos := 0, progPos := 0, diode := 0, runs := [0, 0, 0, 0], queue := [], pass := [],
    cause := 0, ovfUntil := 0, dac := 0, injAt := 0 }

/-- What a line of Stove SRAM keeps of the block delivered there: the verdict cause and identity that travel with it (R35, R253). -/
structure LineTag where
  cause : Nat
  pt    : Nat
  sid   : Nat
  bslot : Nat
deriving DecidableEq, Repr

/-- A Stove operation issued by a region word and not yet complete (R246, R272): its image slot, step, descriptor and
code, whether it sends a token, runs, and on which pipe; then the identity, cause, report origin and outputs that
completion delivers. -/
structure StvJob where
  slot   : Nat
  step   : Nat
  desc   : Nat
  code   : Nat
  tok    : Bool
  run    : Bool
  int8   : Bool
  pt     : Nat
  sid    : Nat
  bslot  : Nat
  cause  : Nat
  origin : Option Nat
  blks   : List Blk
  nums   : List Nat
  sat    : Bool
  ufl    : Bool
deriving DecidableEq, Repr

/-- A stack transfer in progress (R273). -/
structure Xfer where
  slot : Nat
  idx  : Nat
  step : Nat
  run  : Bool
deriving DecidableEq, Repr

/-- A region's controller (R238), Damper share (R613–R617), throttle (R621: level, when it last rose while a zone is hot, since when every zone is cool), regulator (R240: whether its
step is granted, and the charge it holds), trim engine (R176–R189), sense
converter, Stove (R245, R762) and sequencers (R274). -/
structure Region where
  queue    : List PgmReq
  active   : List PgmReq
  asks     : List DReq
  relq     : List Nat
  charge   : Nat
  level    : Nat
  hot      : Option Nat
  cool     : Option Nat
  ivrGrant : Bool
  ivrHold  : Nat
  cmds     : List TrimCmd
  visit    : Nat
  sns      : Sns
  sram     : SMap Byte
  poison   : SMap Nat
  tags     : SMap (Option LineTag)
  jobs     : List StvJob
  xfers    : List Xfer
  seqs     : SMap SeqPos
  samples  : SMap Nat
  storm    : List Nat
  fenced   : Bool
  off      : Bool
  overdue  : List (Nat × Nat)
  stvHold  : SMap Nat
  seqHist  : SMap (List SeqPos)
deriving DecidableEq, Repr

/-- A region at reset. -/
def Region.empty : Region :=
  { queue := [], active := [], asks := [], relq := [], charge := 0, level := 0, hot := none, cool := none, ivrGrant := false, ivrHold := 0, cmds := [],
    visit := 0, sns := Sns.empty, sram := [], poison := [], tags := [], jobs := [], xfers := [], seqs := [], samples := [], storm := [],
    fenced := false, off := true, overdue := [],
    stvHold := [], seqHist := [] }

-- Outputs -----------------------------------------------------------------------------------------

/-- What the block sends, reports or drives: register answers, on-die messages on their way, port traffic,
event messages (the model's own record of outputs). -/
inductive OutKind where
  | regValue | status | contribution | portage | unitMesh | control | guyline | memReq | memRsp | flit | codeword | sdt | frame
  | dzitMsg | dzitFrame | mgmt | irq | i3c | regulator | pin | record | xfer
deriving DecidableEq, Repr

/-- One output: its kind, its numbers, the blocks and the bytes it carries. -/
structure Out where
  kind  : OutKind
  args  : List Nat
  blks  : List Blk
  bytes : List Byte
deriving DecidableEq, Repr

-- Image slots (chapter 6) -------------------------------------------------------------------------

/-- The slot states of R307. -/
inductive SlotSt where
  | empty | checking | ready | running | draining | aborting | ended
deriving DecidableEq, Repr

/-- Codes of ADM_SLOTn.STATE (R316). -/
def SlotSt.code : SlotSt → Nat
  | .empty => 0 | .checking => 1 | .ready => 2 | .running => 3 | .draining => 4 | .aborting => 5 | .ended => 6

/-- A batch in flight: its number since START, the step of its ENTRY, its plane tag, and the token of each filled
batch slot (batch slot, stream, SEQ) (R279, R434, R576). -/
structure Batch where
  no     : Nat
  entry  : Nat
  plane  : Nat
  tokens : List (Nat × Nat × Nat)
deriving DecidableEq, Repr

/-- An image slot: its state, what admission took from the image (R295–R299), where its streams lie in stack
memory, and what runs (R283–R289, R433–R435, R502): the die sequencer and its history, batches entering, in flight and
exiting, gate messages due and sent, link actions waiting, commit marks and the steps that acknowledged commits cover (R544), and tokens
that a non-finite input failed (R480). -/
structure Slot where
  st      : SlotSt
  img     : Nat
  pitch   : Nat
  slack   : Nat
  window  : Nat
  early   : Bool
  planes  : Nat
  layers  : Nat
  feat    : Nat
  pro     : Nat
  body    : Nat
  px0     : Nat
  py0     : Nat
  pw      : Nat
  ph      : Nat
  bslots  : Nat
  mirBw   : Nat
  model0  : List Byte
  model1  : List Byte
  wide    : Nat
  power   : Nat
  slew    : Nat
  digest  : List Byte
  place   : SMap Nat
  names   : Nat
  tagAct  : Bool
  lanes   : SMap (Nat × Nat)
  rgns    : SMap (Nat × Nat)
  dieWords : Nat × Nat
  stoves  : List Nat
  extents : List (Nat × Nat)
  scheds  : SMap (List Byte)
  rates   : SMap Nat
  die     : SeqPos
  floor   : Nat
  pubTime : Nat
  ptr     : Nat
  drain0  : Nat
  drain1  : Nat
  last0   : Option Nat
  last1   : Option Nat
  batches : List Batch
  marked  : List (Nat × Nat)
  gen     : Nat
  rollTo  : Option Nat
  hold    : Bool
  gates   : List (Nat × Option Nat × List (Nat × Nat))
  commits : List Nat
  pgmStop : Bool
  entries : Nat
  filling : List (Nat × Nat × Nat)
  exiting : List (Nat × Batch)
  peak    : Nat
  gateLog : List (Nat × List (Nat × Nat))
  links   : List (Nat × Nat × Nat)
  dieHist : List SeqPos
  stalled : Bool
  taints  : List (Nat × Nat)
  ipeak   : SMap Nat
  covered : Nat
  nonfin  : List (Nat × Nat)
deriving DecidableEq, Repr

/-- A slot that holds no image. -/
def Slot.vacant : Slot :=
  { st := .empty, img := 0, pitch := 0, slack := 0, window := 0, early := false, planes := 0, layers := 0, feat := 0,
    pro := 0, body := 0, px0 := 0, py0 := 0, pw := 0, ph := 0, bslots := 0, mirBw := 0, model0 := [], model1 := [],
    wide := 0, power := 0, slew := 0, digest := [], place := [], names := 0, tagAct := false, lanes := [], rgns := [],
    dieWords := (0, 0), stoves := [], extents := [], scheds := [], rates := [], die := SeqPos.start, floor := 0,
    pubTime := 0, ptr := 0, drain0 := 0, drain1 := 0, last0 := none, last1 := none, batches := [], marked := [],
    gen := 0, rollTo := none, hold := false, gates := [],
    commits := [], pgmStop := false, entries := 0, filling := [], exiting := [], peak := 0, gateLog := [],
    links := [], dieHist := [], stalled := false, taints := [], ipeak := [], covered := 0, nonfin := [] }

-- Silent errors (chapter 11) -----------------------------------------------------------------------

/-- An entry of the suspect table (R513, R530). -/
structure Suspect where
  unit    : Nat
  perm    : Bool
  rung    : Nat
  count   : Nat
  start   : Nat
  openedAt : Nat
deriving DecidableEq, Repr

/-- A failed read kept for the classification of its replay: the unit, the step, the origin and cause reported, the groups that failed with
the sign and size of d[g] in 1/8 LSB, the reference columns that failed (R508), and whether its replay tries a rung of the ladder (R514). -/
structure FailRec where
  unit   : Nat
  step   : Nat
  origin : Nat
  cause  : Nat
  groups : List (Nat × Int)
  refs   : List Nat
  trial  : Bool
deriving DecidableEq, Repr

/-- An error record waiting for management software's receipt: its number, its bytes and when it was last sent (R526). -/
structure ErrRec where
  seq    : Nat
  bytes  : List Byte
  sentAt : Nat
deriving DecidableEq, Repr

/-- A stress test in progress (R516–R519): the unit under test, its stand-in spare, the phase reached, what the test rail that the unit draws from
lies below the region's supply (in %: 0, 2, 4, 6 or 8), the margin code before the test, and whether something else needs a spare of the
cluster. -/
structure Stress where
  c      : Nat
  slot   : Nat
  spare  : Nat
  phase  : Nat
  rail   : Nat
  code   : Nat
  wanted : Bool
deriving DecidableEq, Repr

/-- A residency record of the Logbook (R428, R432): state 0 FREE, 1 COMPLETE, 2 PARTIAL, 3 LOADING; `members` are
its unit-planes, keyed (cluster × 64 + logical unit) × 2 + plane; `odd` the copies of the Logbook that do not hold the record in
force (R687). -/
structure ResRec where
  st      : Nat
  join    : Bool
  plane   : Nat
  digest  : List Byte
  rect    : List Nat
  members : List Nat
  time    : Nat
  odd     : List Nat := []
deriving DecidableEq, Repr

/-- A free record. -/
def ResRec.free : ResRec := { st := 0, join := false, plane := 0, digest := [], rect := [], members := [], time := 0 }

/-- A stack controller (R380, R381, R388): failing pins seen with their times (pseudo-channel, pin, time), pins
mapped onto redundant lanes, pseudo-channels with no lane left, the next sector of the patrol, and whether a fence is
in progress. -/
structure Stk where
  pins    : List (Nat × Nat × Nat)
  mapped  : List (Nat × Nat)
  spent   : List Nat
  patrol  : Nat
  fencing : Bool
deriving DecidableEq, Repr

/-- A controller at reset. -/
def Stk.empty : Stk := { pins := [], mapped := [], spent := [], patrol := 0, fencing := false }

/-- A submit that waits to be placed (R574): its SEQ, operation (1 TOKEN, 2 VECTOR, 3 NEXT), token index or element
count, element codes, deadline, arrival number and credits. -/
structure Submit where
  seq      : Nat
  op       : Nat
  index    : Nat
  elems    : List Word
  deadline : Nat
  arrival  : Nat
  slots    : Nat
deriving DecidableEq, Repr

/-- A placed submit of a stream that has been closed since (R40, R572): the slot whose batch holds it, its SEQ, and the output format its
stream had. -/
structure OldToken where
  slot    : Nat
  seq     : Nat
  fmtOut  : Nat
  int8exp : Nat
deriving DecidableEq, Repr

/-- A stream as its engine holds it (R390, R572–R576): its table entry, submits queued and placed, the token of its
last result, whether that result was a VECTOR, and the placed submits of streams that had its ID before (R40). -/
structure Strm where
  ent     : StreamEnt
  queue   : List Submit
  placed  : List Nat
  prev    : Option Nat
  prevVec : Bool
  old     : List OldToken
deriving DecidableEq, Repr

/-- The entry of a stream that is not open. -/
def StreamEnt.free : StreamEnt :=
  { state := 0, mirrored := false, taken := false, slot := 0, prio := 0, fmtIn := 0, fmtOut := 0, int8exp := 0, kvbase := 0,
    kvcap := 0, kvpos := 0, pos := 0, deadline := 0, seqin := 0, seqout := 0, endStat := 0 }

/-- A stream never opened. -/
def Strm.free : Strm := { ent := StreamEnt.free, queue := [], placed := [], prev := none, prevVec := false, old := [] }

/-- A result formed and not yet sent (R580–R582, R544): OP 0 error completion, 1 TOKEN, 2 VECTOR; `exit` names the slot
and step whose commit a mirrored stream's result waits for; `exited` marks one formed at an EXIT, `kept` a completion kept in the stream's entry, `freed` one of a
stream that is FREE since. -/
structure Res where
  sid    : Nat
  seq    : Nat
  op     : Nat
  status : Nat
  index  : Nat
  elems  : List Nat
  width  : Nat
  exit   : Option (Nat × Nat)
  exited : Bool
  kept   : Bool
  freed  : Bool
deriving DecidableEq, Repr

/-- The pair's state beside the TWN page (R538–R552): heartbeats (last HEART received, last sent), the state SUSPECT came
from; own commits (last number, those waiting with slot and step); the partner's SRCBASE in bytes; the mirror of the partner's
table and slots, committed and as received since; the last COMMIT received, ACKs due, the last acknowledged; the result log
with the commit number before each arrival; streams held for an image, streams handed over and not yet taken. -/
structure Twin where
  heartAt   : Nat
  sentAt    : Nat
  back      : Nat
  commitNo  : Nat
  psrc      : Nat
  waits     : List (Nat × Nat × Nat)
  ents      : SMap StreamEnt
  entsNew   : List (Nat × StreamEnt)
  slots     : SMap SlotItem
  slotsNew  : List (Nat × SlotItem)
  inNo      : Nat
  ackDue    : List Nat
  ackSent   : Nat
  log       : List (Nat × List Byte)
  held      : List Nat
  handed    : List Nat
deriving DecidableEq, Repr

/-- A mirrored slot item never received. -/
def SlotItem.none : SlotItem := { slot := 0, state := 0, ptr := 0, digest := [], model0 := [], model1 := [], floor := 0 }

/-- The pair at reset. -/
def Twin.off : Twin :=
  { heartAt := 0, sentAt := 0, back := 0, commitNo := 0, psrc := 0, waits := [], ents := [], entsNew := [], slots := [], slotsNew := [], inNo := 0, ackDue := [], ackSent := 0,
    log := [], held := [], handed := [] }

/-- A message towards the host (R563). -/
structure DMsg where
  cls    : Nat
  op     : Nat
  status : Nat
  sid    : Nat
  seq    : Nat
  body   : List Byte
deriving DecidableEq, Repr

/-- A Dzit slot sent and not acknowledged (R448, R559): its link sequence number, the message whose part it carries (none for an IDLE
slot) and which part, the credits that it returns, and when it was sent. -/
structure DSent where
  lseq : Nat
  msg  : Option DMsg
  part : Nat
  cred : List Nat
  time : Nat
deriving DecidableEq, Repr

/-- The Dzit link (R556–R564): messages waiting to leave, the message that leaves and its next part, slots sent, link sequence numbers
out and in, resends without progress, the number and time of the last frame, credits by class that the device holds, that it owes the
host, and that the host holds; slots of the message arriving that are still to come; good lanes, the lanes of a LANEMAP proposed with
its frame, when training is tried again, and whether the last mark received showed SYNC (R758). -/
structure Dzit where
  txq     : List DMsg
  cur     : Option (DMsg × Nat)
  sent    : List DSent
  seqOut  : Nat
  seqIn   : Nat
  resends : Nat
  frame   : Nat
  frameAt : Option Nat
  cred    : SMap Nat
  back    : SMap Nat
  host    : SMap Nat
  rxLeft  : Nat
  good    : Nat
  lanemap : Option (Nat × Nat)
  tryAt   : Nat
  synced  : Bool
deriving DecidableEq, Repr

/-- The Dzit link at reset. -/
def Dzit.off : Dzit :=
  { txq := [], cur := none, sent := [], seqOut := 0, seqIn := 0, resends := 0, frame := 0, frameAt := none, cred := [], back := [],
    host := [], rxLeft := 0, good := 0, lanemap := none, tryAt := 0, synced := false }

/-- An admission in progress: its slot, the image's address, and what its checks found as things stood when ADMIT was
written (R304, R305): refusal code with section, index and offset, or code 0. -/
structure AdmJob where
  slot  : Nat
  addr  : Nat
  code  : Nat
  sec   : Nat
  index : Nat
  off   : Nat
deriving DecidableEq, Repr

-- Ports (chapter 10) ------------------------------------------------------------------------------

/-- A block waiting at a port (R468): its source cluster, its sender there, the step it was made in, its pitch, and
whether a copy sent again is awaited (R504, R509). -/
structure Egr where
  scl   : Nat
  src   : Nat
  step  : Nat
  pitch : Nat
  blk   : Blk
  due   : Bool
deriving DecidableEq, Repr

/-- A link action whose blocks have been taken: it waits for its confirmation (R469), or is kept for a replay
(R509). -/
structure LinkAct where
  slot : Nat
  desc : Nat
  step : Nat
  blks : List Egr
deriving DecidableEq, Repr

/-- A link action arriving at an ingress (R471): its source and step, system pitch, destination and token, local pitch,
the messages injected for it, blocks short of a group of four, whether its last flit has come, whether its token has
left, and whether a rollback makes it come again (R511). -/
structure InAct where
  src   : Nat
  step  : Nat
  spid  : Nat
  dcl   : Nat
  sub   : Nat
  kind  : Nat
  tokc  : Nat
  pitch : Nat
  ids   : List Nat
  got   : List Blk
  last  : Bool
  sent  : Bool
  redo  : Bool
deriving DecidableEq, Repr

/-- An arrival log entry of an ingress (R510): source, producer step, local pitch, published floor at the first write,
batch slots, whether a block came with a failed cause, and whether its batch slots are tainted (R511). -/
structure ArrLog where
  src    : Nat
  step   : Nat
  pitch  : Nat
  floor  : Nat
  bslots : List Nat
  failed : Bool
  taint  : Bool
deriving DecidableEq, Repr

/-- A port (R442–R471): blocks waiting by source cluster, link actions held and kept, flits waiting to leave and sent but
not acknowledged (with the time of sending), link sequence numbers out and in, resends without progress, when it went
down, the far end's XOFF, arriving actions, arrival logs, sources whose failed flits are discarded (source, step, until),
RECALL flits due (slot, step), the lanes proposed by a LANEMAP and its codeword, the next retry of training, the good
lanes, and the last IDENT (coordinate, port code, identity). -/
structure Port where
  blocks  : List Egr
  held    : List LinkAct
  kept    : List LinkAct
  wait    : List Flit
  replay  : List (Flit × Nat)
  seqOut  : Nat
  seqIn   : Nat
  resends : Nat
  downAt  : Nat
  xoff    : Nat
  acts    : List InAct
  log     : List ArrLog
  drops   : List (Nat × Nat × Nat)
  owed    : List (Nat × Nat)
  lanemap : Option (Nat × Nat)
  tryAt   : Nat
  good    : Nat
  heard   : Option (Nat × Nat × Nat)
  transit : List (Nat × Nat × Flit)
deriving DecidableEq, Repr

/-- A port at reset. -/
def Port.empty : Port :=
  { blocks := [], held := [], kept := [], wait := [], replay := [], seqOut := 0, seqIn := 0, resends := 0, downAt := 0,
    xoff := 0, acts := [], log := [], drops := [], owed := [], lanemap := none, tryAt := 0, good := 0, heard := none, transit := [] }

/-- An SDT packet sent and not acknowledged: its number, flits, resends and time of sending (R477). -/
structure SdtPkt where
  psn   : Nat
  flits : List Flit
  tries : Nat
  time  : Nat
deriving DecidableEq, Repr

/-- An SDT path (R476–R478): whether it is open and whether an OPEN is out, flits waiting and packets sent, PSNs out and
in, packets received out of order, receipts not yet acknowledged and the time of the oldest, and the highest step each
slot's flits have carried (R509). -/
structure Path where
  opened : Bool
  asked  : Bool
  wait   : List Flit
  sent   : List SdtPkt
  psnOut : Nat
  psnIn  : Nat
  ahead  : List (Nat × List Flit)
  owed   : Nat
  owedAt : Nat
  steps  : SMap Nat
  pace   : Nat
deriving DecidableEq, Repr

/-- A path never used. -/
def Path.empty : Path :=
  { opened := false, asked := false, wait := [], sent := [], psnOut := 0, psnIn := 0, ahead := [], owed := 0, owedAt := 0,
    steps := [], pace := 0 }

-- The roll call (chapter 17) ---------------------------------------------------------------------------

/-- The roll call at a device (R708–R712): the trailhead it follows (0 none), hop count of its CALL, ports its CALL left on,
reports a trailhead holds and the time of the last new one, the table held (identities by index), and the round, axis
lengths and segments of a table that arrives. -/
structure Roll where
  trail   : Nat
  hops    : Nat
  called  : List Nat
  reports : List RollReport
  lastAt  : Nat
  table   : List Nat
  round   : Nat
  segs    : List (Nat × List Nat)
deriving DecidableEq, Repr

/-- No roll call yet. -/
def Roll.none : Roll := { trail := 0, hops := 0, called := [], reports := [], lastAt := 0, table := [], round := 0, segs := [] }

-- The loader (chapter 9) -----------------------------------------------------------------------------

/-- The loader (R404–R429): addresses of the manifest and the relay area, MODE, the PLANE field and the plane resolved from it,
UPPORT and DOWNPORT, the manifest digest, the unit-planes claimed, the shard being fetched with its turn through the sources, bytes
so far, time of the last one and WAITs, verified shards decompressed, unit-planes whose record has to be sent, those that wait for
a spare, BADREQ answers by message, Logbook copies of the commit that are complete, and, of the last DONE load, its manifest,
relay area (where it had one), digest and shards held. -/
structure Loader where
  man    : Nat
  relay  : Nat
  mode   : Nat
  auto   : Nat
  plane  : Nat
  up     : Nat
  down   : Nat
  digest : List Byte
  claims : List Nat
  shard  : Option Nat
  turn   : Nat
  buf    : List Byte
  since  : Nat
  waits  : Nat
  raw    : SMap (List Byte)
  due    : List Nat
  subs   : List Nat
  resent : SMap Nat
  copies : List Nat
  lastMan    : Nat
  lastRelay  : Option Nat
  lastDigest : List Byte
  lastHeld   : List Nat
deriving DecidableEq, Repr

/-- The loader at reset. -/
def Loader.idle : Loader :=
  { man := 0, relay := 0, mode := 0, auto := 0, plane := 0, up := 15, down := 15, digest := [], claims := [], shard := none, turn := 0,
    buf := [], since := 0, waits := 0, raw := [], due := [], subs := [], resent := [], copies := [], lastMan := 0,
    lastRelay := none, lastDigest := [], lastHeld := [] }

-- Start-up (chapter 17) ---------------------------------------------------------------------------------

/-- Start-up and boot (R607, R691–R693, R704, R756): the copy named as preferred, REVOKE of the running copy, whether the ROM halted,
whether SVC_WARN_N holds stage 1 back, when RST_N rose and the stage began, rows of regions powered so far and when the last was, and
when the device became READY, and whether the identity key is held (R696). -/
structure Boot where
  prefer  : Nat
  revoke  : Nat
  halted  : Bool
  waiting : Bool
  roseAt  : Nat
  stageAt : Nat
  rows    : Nat
  rowAt   : Nat
  readyAt : Nat
  keyHeld : Bool
deriving DecidableEq, Repr

/-- Right after reset. -/
def Boot.start : Boot :=
  { prefer := 0, revoke := 0, halted := false, waiting := false, roseAt := 0, stageAt := 0, rows := 0, rowAt := 0, readyAt := 0, keyHeld := false }


/-- The state of the block. Every table is sparse: what it does not list has its value at reset. The commands that wait are `pending`, first
in, first out; `out` is the model's own record of what the block sends, and `free` the model's own count of the free values taken.

* Registers: `regs` are the stored words of every page, unit window and requester's bank (chapter 18), `latch` the upper halves that a read
  latched (R730), `locks` the keys of locked pages (R743), `evHold` when an event select may act again (R742), `layerRegs` the layers' rows
  behind a window (R153), `ioRegs` the slots' input and output areas (R589), `peers` the peer table of the Ethernet ports.
* Time: `rack` in periods of 10 ns (R482), `epochAt` and `refAt` when rack time and the reference last changed, `rtArm`, `ptpArm` and `ptpOfs` the
  adjustments that wait (R483–R487).
* Whistle and counters (chapter 16): `whiDue` and `whiWait` timers and set-pendings, `ovfNext` the counters that overflowed, newest first,
  `snapAt` the snapshot that is armed.
* Compute: `units`, `clus`, `rgns` the physical slots, clusters and regions; `mem` the bytes of the stacks, `stks` their controllers; the precision
  counts of the present epoch `epochAdd` and the sources it has raised `epochRaised` (R154).
* Charge (chapter 14): the limit `qmax`, the region last served `rrLast`, the Damper's last period `dampAt`, the last PWR_LIMIT `limitAt`.
* Images: `slots`, the admission under way `admJob`, the output records whose write failed `outFail`, the slot whose recipes the layers hold
  `rcpOwner`, the loader `ld`, residency records `resrecs`.
* Streams (chapter 6): `strms`, arrivals so far `arrNo`, `results` and `events` to send.
* Silent errors (chapter 11): `suspects`, `failRecs`, `records`, `stress`; for the judgement of routers (R524) the links declared down with
  their time and ends `downs`, the route of each cluster's last failed beat `netPath`, the permanent NET failures with their time and route
  `netFails`; and the NET and PANTRY failures (cluster, step, origin, cause, pitch) whose replay is under way `netWait` (R508).
* Links: `ports`, `paths`, `recalls`, the Dzit link `dz` with the answers held behind others `sresp`, the pair `twn` and its deliveries `twinDel`,
  the roll call `roll`.
* Firmware and start-up (chapter 17): `logCoef`, `logTime`, `logWear`, `logFails` the Logbook, `opKey` the operator key, `meas` the measurements, `boot`,
  and the pins RST_N (`enabled`) and SVC_WARN_N (`svcLow`). -/
structure State where
  free    : Nat
  rack    : Wide
  regs    : SMap Word
  latch   : SMap Word
  locks   : SMap Nat
  evHold  : SMap Nat
  whiDue  : SMap Nat
  whiWait : List Nat
  ovfNext : List Nat
  snapAt  : Option Nat
  units   : SMap USlot
  clus    : SMap Cluster
  rgns    : SMap Region
  mem     : List Host.Cell
  slots   : SMap Slot
  suspects : List Suspect
  failRecs : List FailRec
  downs   : List (Nat × Nat × Nat)
  netPath : SMap (List Nat)
  netFails : List (Nat × List Nat)
  netWait : List (Nat × Nat × Nat × Nat × Nat)
  records : List ErrRec
  layerRegs : SMap Word
  epochAdd : SMap Nat
  epochRaised : List Nat
  rcpOwner : Option Nat
  resrecs : SMap ResRec
  logCoef : SMap (List Word)
  logTime : SMap Nat
  logWear : SMap Nat
  stks : SMap Stk
  ioRegs : SMap Word
  outFail : List (Nat × Nat)
  strms   : SMap Strm
  arrNo   : Nat
  results : List Res
  events  : List (Nat × List Byte)
  twn     : Twin
  qmax    : Nat
  rrLast  : Nat
  limitAt : Nat
  dz      : Dzit
  admJob  : Option AdmJob
  opKey   : List Byte
  ports   : SMap Port
  paths   : SMap Path
  peers   : SMap Word
  recalls : List (Nat × Nat × Nat)
  rtArm   : Option Nat
  ptpArm  : Bool
  ptpOfs  : Option Int
  roll    : Roll
  ld      : Loader
  logFails : SMap Nat
  stress  : List Stress
  dampAt  : Option Nat
  epochAt : Option Nat
  refAt   : Nat
  meas    : SMap (List Byte)
  boot    : Boot
  twinDel : SMap Nat
  enabled : Bool
  svcLow  : Bool
  sresp   : List (DMsg × Bool)
  out     : List Out
  pending : List Instr
deriving DecidableEq, Repr

/-- The state right after reset. -/
def State.reset : State :=
  { free := 0, rack := 0, regs := [], latch := [], locks := [], evHold := [], whiDue := [], whiWait := [], ovfNext := [], snapAt := none, units := [],
    clus := [], rgns := [], mem := [],
    slots := [], suspects := [], failRecs := [], downs := [], netPath := [], netFails := [], netWait := [], records := [],
    layerRegs := [], epochAdd := [], epochRaised := [], rcpOwner := none,
    resrecs := [], logCoef := [], logTime := [], logWear := [],
    stks := [],
    ioRegs := [], outFail := [],
    strms := [], arrNo := 0, results := [], events := [], twn := Twin.off,
    qmax := 0, rrLast := 63, limitAt := 0,
    dz := Dzit.off,
    admJob := none, opKey := [],
    ports := [], paths := [], peers := [], recalls := [], rtArm := none, ptpArm := false, ptpOfs := none, roll := Roll.none, ld := Loader.idle, logFails := [],
    stress := [], dampAt := none, epochAt := none, refAt := 0, meas := [], boot := Boot.start, twinDel := [], enabled := false, svcLow := false,
    sresp := [], out := [], pending := [] }

end Sys2Proof.Machine
end

