-- ==== Sys2Proof/Machine/Ops.lean ====
section
/-! DEFINITION. Operations shared by the meanings: pages and register storage, outputs, Whistle events
(R668–R675), event counters (R679–R681), page errors and event selects (R739–R742), sense triggers
(R646, R648), and access to units, clusters, regions and memory. -/

namespace Sys2Proof.Machine

-- Pages -------------------------------------------------------------------------------------------

/-- A page of the register space, or a unit's registers behind the unit window (R721, R749). -/
inductive Page where
  | die (p : Nat)
  | rgn (r p : Nat)
  | clu (c : Nat)
  | unit (c slot : Nat)
deriving DecidableEq, Repr

/-- The page and offset of a register address, or none where it is unmapped (R721, R722). -/
def pageOf (ra : Nat) : Option (Page × Nat) :=
  let hi := fld ra 39 32
  let off := ra % 4096
  if hi = 0 ∧ fld ra 31 24 = 0 then some (.die (fld ra 23 12), off)
  else if hi = 1 ∧ fld ra 31 26 = 0 then some (.rgn (fld ra 25 20) (fld ra 19 12), off)
  else if hi = 2 ∧ fld ra 31 26 = 0 then some (.clu (fld ra 25 12), off)
  else none

/-- Where a page's words lie in the register table. -/
def Page.base : Page → Nat
  | .die p => p * 4096
  | .rgn r p => 2 ^ 32 + r * 2 ^ 20 + p * 4096
  | .clu c => 2 ^ 33 + c * 4096
  | .unit c slot => 2 ^ 40 + (c * 128 + slot) * 4096

/-- Class and number of a page's block (R733, R745, R746); class 0 for a reserved page. -/
def Page.cls : Page → Nat × Nat
  | .die 0 => (1, 0)
  | .die p =>
    if 1 ≤ p ∧ p ≤ 9 then (2, p - 1)
    else if p = 0x20 then (3, 0) else if p = 0x30 then (4, 0) else if p = 0x40 then (5, 0)
    else if p = 0x50 then (6, 0) else if p = 0x60 then (7, 0)
    else if 0x70 ≤ p ∧ p ≤ 0x74 then (8, p - 0x70)
    else if 0x80 ≤ p ∧ p ≤ 0x87 then (9, p - 0x80)
    else if 0xA0 ≤ p ∧ p ≤ 0xB3 then (0x0A, p - 0xA0)
    else if 0xC0 ≤ p ∧ p ≤ 0xC7 then (0x0B, p - 0xC0)
    else if p = 0xD0 then (0x0C, 0) else if p = 0xE0 then (0x0D, 0) else if p = 0xF0 then (0x0E, 0)
    else if p = 0x100 then (0x0F, 0) else if p = 0x110 then (0x10, 0) else if p = 0x120 then (0x11, 0)
    else (0, 0)
  | .rgn r p => if p < 6 then (0x20 + p, r) else (0, 0)
  | .clu c => (0x30, ((c / 128) % 16) * 16 + (c % 128) % 16)
  | .unit _ _ => (0x30, 0)

/-- The block-specific registers of a page. -/
def Page.table (p : Page) : List Reg :=
  match p with
  | .unit _ _ => RT.unit
  | _ =>
    match p.cls with
    | (1, _) => RT.die
    | (2, 0) => RT.whi
    | (2, _) => RT.whiSrc
    | (3, _) => RT.clk
    | (4, _) => RT.pwr
    | (5, _) => RT.log
    | (6, _) => RT.sec
    | (7, _) => RT.dzt
    | (8, _) => RT.rlp
    | (9, _) => RT.eth
    | (0x0A, _) => RT.stk
    | (0x0B, 0) => RT.sfs0
    | (0x0B, _) => RT.sfsEng
    | (0x0C, _) => RT.adm
    | (0x0D, _) => RT.twn
    | (0x0E, _) => RT.cntPage
    | (0x0F, _) => RT.strm
    | (0x10, _) => RT.pch
    | (0x11, _) => RT.top
    | (0x20, _) => RT.rgn
    | (0x21, _) => RT.trm
    | (0x22, _) => RT.sns
    | (0x23, _) => RT.stv
    | (0x24, _) => RT.rcn
    | (0x25, _) => RT.ivr
    | (0x30, _) => RT.clu
    | _ => []

/-- Whether a register, or an array of them, covers an offset. -/
def Reg.covers (r : Reg) (off : Nat) : Bool :=
  decide (r.off ≤ off) && decide ((off - r.off) % r.stride = 0) && decide ((off - r.off) / r.stride < r.n)

/-- The fields of the register at an offset; none where no register lies (R723). -/
def Page.fields (p : Page) (off : Nat) : Option (List Field) :=
  if p.cls.1 = 0 then none
  else
    let l := match p with
      | .unit _ _ => RT.unit
      | _ => if off < 0x100 then RT.header else p.table
    (l.find? (fun r => r.covers off)).map (·.fields)

/-- The word of a register's fields at reset. -/
def fieldsReset (fs : List Field) : Nat := sumN (fs.map (fun f => (f.rst % 2 ^ (f.hi + 1 - f.lo)) * 2 ^ f.lo))

/-- The reset values that differ within an array of registers: format tables (R116) and regular sense
entries (R657). -/
def specialReset (p : Page) (off : Nat) : Option Nat :=
  match p with
  | .clu _ =>
    if off = 0x1C8 then some (7 * 2 ^ 24 + 1 * 2 ^ 20)
    else if off = 0x1D0 then some (6 * 2 ^ 24 + 5 * 2 ^ 20 + 1 * 2 ^ 16)
    else if 0x1C0 ≤ off ∧ off < 0x200 ∧ off % 8 = 0 then some (15 * 2 ^ 24 + 5 * 2 ^ 20)
    else none
  | .rgn _ 2 =>
    if off = 0x140 then some 0x0B0A0908 else if off = 0x144 then some 0x0F0E0D0C
    else if off = 0x148 then some 0x13121110 else none
  | .rgn _ 1 =>
    if 0x130 ≤ off ∧ off < 0x150 then some ((20 + 10 * ((off - 0x130) / 4)) * 2 ^ 16) else none
  | _ => none

/-- The reset word of a register: zero where no register lies. -/
def Page.resetWord (p : Page) (off : Nat) : Word :=
  word ((specialReset p off).getD (fieldsReset ((p.fields off).getD [])))

/-- The stored word of a register. -/
def rd (p : Page) (off : Nat) (s : State) : Word := SMap.get (p.resetWord off) s.regs (p.base + off)

/-- Store a register's word. -/
def wr (p : Page) (off : Nat) (v : Word) (s : State) : State :=
  { s with regs := SMap.set (p.resetWord off) s.regs (p.base + off) v }

/-- A field of a stored register. -/
def rf (p : Page) (off hi lo : Nat) (s : State) : Nat := getF (rd p off s) hi lo

/-- Store a field of a register. -/
def wf (p : Page) (off hi lo v : Nat) (s : State) : State := wr p off (setF (rd p off s) hi lo v) s

/-- One bit of a stored register. -/
def rb (p : Page) (off i : Nat) (s : State) : Bool := rf p off i i s == 1

/-- Store one bit of a register. -/
def wb (p : Page) (off i : Nat) (b : Bool) (s : State) : State := wf p off i i (b2n b) s

/-- Add to a saturating field. -/
def bump (p : Page) (off hi lo n : Nat) (s : State) : State :=
  wf p off hi lo (satAdd (hi + 1 - lo) (rf p off hi lo s) n) s

/-- A 64-bit value held in a LO and HI pair. -/
def rd64 (p : Page) (off : Nat) (s : State) : Nat := (rd p off s).toNat + 2 ^ 32 * (rd p (off + 4) s).toNat

/-- Store a 64-bit value in a LO and HI pair. -/
def wr64 (p : Page) (off v : Nat) (s : State) : State := wr p (off + 4) (word (v / 2 ^ 32)) (wr p off (word v) s)

/-- The die pages by name (R745). -/
def pgDie : Page := .die 0
def pgWhi : Page := .die 1
def pgClk : Page := .die 0x20
def pgPwr : Page := .die 0x30
def pgLog : Page := .die 0x40
def pgSec : Page := .die 0x50
def pgDzt : Page := .die 0x60
def pgRlp (p : Nat) : Page := .die (0x70 + p)
def pgEth (p : Nat) : Page := .die (0x80 + p)
def pgStk (n : Nat) : Page := .die (0xA0 + n)
def pgSfs : Page := .die 0xC0
def pgAdm : Page := .die 0xD0
def pgTwn : Page := .die 0xE0
def pgCnt : Page := .die 0xF0
def pgStrm : Page := .die 0x100
def pgPch : Page := .die 0x110
def pgTop : Page := .die 0x120
/-- The region pages by name (R239). -/
def pgRgn (r : Nat) : Page := .rgn r 0
def pgTrm (r : Nat) : Page := .rgn r 1
def pgSns (r : Nat) : Page := .rgn r 2
def pgStv (r : Nat) : Page := .rgn r 3
def pgRcn (r : Nat) : Page := .rgn r 4
def pgIvr (r : Nat) : Page := .rgn r 5

-- Time, outputs, free values ------------------------------------------------------------------------

/-- Rack time in 10 ns periods (R482). -/
def now (s : State) : Nat := s.rack.toNat

/-- Periods in a microsecond. -/
def usec : Nat := 100

/-- Periods in a millisecond. -/
def msec : Nat := 100000

/-- Report one output. -/
def emit (o : Out) (s : State) : State := { s with out := s.out ++ [o] }

/-- An output of numbers alone. -/
def say (k : OutKind) (args : List Nat) (s : State) : State := emit { kind := k, args := args, blks := [], bytes := [] } s

/-- An output of numbers and bytes. -/
def sayBytes (k : OutKind) (args : List Nat) (bs : List Byte) (s : State) : State :=
  emit { kind := k, args := args, blks := [], bytes := bs } s

/-- An output of numbers and blocks. -/
def sayBlks (k : OutKind) (args : List Nat) (bs : List Blk) (s : State) : State :=
  emit { kind := k, args := args, blks := bs, bytes := [] } s

/-- Take a free value: a number no rule constrains, and the state that has used it. -/
def takeFree (s : State) : Nat × State := ((Config.freeWord s.free).toNat, { s with free := s.free + 1 })

-- Units, clusters, regions -----------------------------------------------------------------------------

/-- Key of a physical slot. -/
def ukey (c slot : Nat) : Nat := c * 128 + slot

/-- A physical slot of a cluster. -/
def unitAt (c slot : Nat) (s : State) : USlot := SMap.get (USlot.fresh slot) s.units (ukey c slot)

/-- Store a physical slot. -/
def setUnit (c slot : Nat) (x : USlot) (s : State) : State :=
  { s with units := SMap.set (USlot.fresh slot) s.units (ukey c slot) x }

/-- Change a physical slot. -/
def updUnit (c slot : Nat) (f : USlot → USlot) (s : State) : State := setUnit c slot (f (unitAt c slot s)) s

/-- A cluster. -/
def cluAt (c : Nat) (s : State) : Cluster := SMap.get Cluster.empty s.clus c

/-- Store a cluster. -/
def setClu (c : Nat) (x : Cluster) (s : State) : State := { s with clus := SMap.set Cluster.empty s.clus c x }

/-- Change a cluster. -/
def updClu (c : Nat) (f : Cluster → Cluster) (s : State) : State := setClu c (f (cluAt c s)) s

/-- A region. -/
def rgnAt (r : Nat) (s : State) : Region := SMap.get Region.empty s.rgns r

/-- Store a region. -/
def setRgn (r : Nat) (x : Region) (s : State) : State := { s with rgns := SMap.set Region.empty s.rgns r x }

/-- Change a region. -/
def updRgn (r : Nat) (f : Region → Region) (s : State) : State := setRgn r (f (rgnAt r s)) s

/-- Plane p of a slot. -/
def USlot.plane (x : USlot) (p : Nat) : Plane := if p = 0 then x.p0 else x.p1

/-- Replace plane p of a slot. -/
def USlot.setPlane (x : USlot) (p : Nat) (y : Plane) : USlot := if p = 0 then { x with p0 := y } else { x with p1 := y }

/-- Change plane p of a slot. -/
def updPlane (c slot p : Nat) (f : Plane → Plane) (s : State) : State :=
  updUnit c slot (fun x => x.setPlane p (f (x.plane p))) s

/-- Region of a cluster (R8). -/
def regionOf (c : Nat) : Nat := (c / 128 / 16) * 8 + (c % 128) / 16

/-- Local cluster index within the region (R733). -/
def localOf (c : Nat) : Nat := ((c / 128) % 16) * 16 + (c % 128) % 16

/-- Global cluster index of a region's local cluster. -/
def clusterOf (r l : Nat) : Nat := ((r / 8) * 16 + l / 16) * 128 + (r % 8) * 16 + l % 16

/-- Attachment cluster of a region's Stove (R257). -/
def stoveCluster (r : Nat) : Nat := clusterOf r (8 * 16 + 8)

/-- Thermal zone of a cluster in its region (R171). -/
def zoneOf (c : Nat) : Nat := (((c / 128) % 16) / 8) * 4 + ((c % 128) % 16) / 4

-- Memory --------------------------------------------------------------------------------------------------

/-- Bytes of an interleave group, and of a stack; the first address beyond the map (R375). -/
def groupSize : Nat := 0x2400000000
def stackSize : Nat := 0x900000000
def mapTop : Nat := 0xB400000000

/-- Whether a group is interleaved (R376, R396). -/
def interleaved (g : Nat) (s : State) : Bool := rb (pgStk (4 * g)) 0x118 0 s

/-- The stack and local address of a stack address; none where it is unmapped (R375). -/
def placeOf (a : Nat) (s : State) : Option (Nat × Nat) :=
  let g := a / groupSize
  let o := a % groupSize
  if mapTop ≤ a then none
  else if interleaved g s then some (4 * g + o / 256 % 4, o / 1024 * 256 + o % 256)
  else some (4 * g + o / stackSize, o % stackSize)

/-- Key of a byte of a stack. -/
def memKey (n loc : Nat) : Nat := n * 2 ^ 36 + loc

/-- One byte of a stack by its local address; what nothing has written reads as 0 (R763). -/
def locByte (n loc : Nat) (s : State) : Byte := SMap.get 0 s.mem (memKey n loc)

/-- Write one byte of a stack. -/
def locPut (n loc : Nat) (b : Byte) (s : State) : State := { s with mem := SMap.set 0 s.mem (memKey n loc) b }

/-- Write bytes of a stack from a local address up. -/
def locWrite (n : Nat) : Nat → List Byte → State → State
  | _, [], s => s
  | a, b :: bs, s => locWrite n (a + 1) bs (locPut n a b s)

/-- One byte of memory by its stack address; an unmapped address reads as 0. -/
def memByte (a : Nat) (s : State) : Byte :=
  match placeOf a s with
  | none => 0
  | some (n, l) => locByte n l s

/-- Write one byte of memory; an unmapped address holds nothing. -/
def memPut (a : Nat) (b : Byte) (s : State) : State :=
  match placeOf a s with
  | none => s
  | some (n, l) => locPut n l b s

/-- n bytes of memory. -/
def memRead (a n : Nat) (s : State) : List Byte := (List.range n).map (fun i => memByte (a + i) s)

/-- Write bytes from an address up. -/
def memWrite : Nat → List Byte → State → State
  | _, [], s => s
  | a, b :: bs, s => memWrite (a + 1) bs (memPut a b s)

/-- The canonical form of memory. -/
def Memory.wf (m : List Host.Cell) : Bool := SMap.wf (0 : Byte) m

-- Whistle (R665–R676) ---------------------------------------------------------------------------------------

/-- The page of a source's registers (R678). -/
def srcPage (n : Nat) : Page := .die (2 + n / 256)
/-- The offset of a source's word in its page. -/
def srcOff (base n : Nat) : Nat := base + 4 * (n % 256)

/-- Number of a region's source i (R665). -/
def rgnSrc (r i : Nat) : Nat := 1024 + 16 * r + i

/-- Bring a source into PENDING (R669). -/
def srcPend (n : Nat) (s : State) : State := wf (srcPage n) (srcOff 0x900 n) 31 30 1 s

/-- Whether an IDLE source has cause to enter PENDING (R669, R670). -/
def srcReady (n : Nat) (s : State) : Bool :=
  let st := rd (srcPage n) (srcOff 0x900 n) s
  let cf := rd (srcPage n) (srcOff 0x100 n) s
  s.whiWait.contains n ||
    (getB cf 31 && (decide (getF cf 7 0 ≤ getF st 15 0) || getB st 28))

/-- Let an IDLE source enter PENDING when it has cause and delivery is enabled (R669, R670). -/
def srcTry (n : Nat) (s : State) : State :=
  if rf (srcPage n) (srcOff 0x900 n) 31 30 s = 0 ∧ rb pgWhi 0x100 0 s ∧ srcReady n s then
    srcPend n { s with whiWait := s.whiWait.filter (· ≠ n) }
  else s

/-- Start a source's timer (R669). -/
def srcTimer (n : Nat) (s : State) : State :=
  let s := wb (srcPage n) (srcOff 0x900 n) 29 true s
  { s with whiDue := SMap.set 0 s.whiDue n (now s + usec * rf (srcPage n) (srcOff 0x500 n) 15 0 s) }

/-- One event of a source (R668, R669). -/
def fire (n : Nat) (s : State) : State :=
  let st := rd (srcPage n) (srcOff 0x900 n) s
  let s1 := wf (srcPage n) (srcOff 0x900 n) 15 0 (satAdd 16 (getF st 15 0) 1) s
  let s2 := if getF st 15 0 = 0 ∧ getF st 31 30 ≠ 1 then srcTimer n s1 else s1
  srcTry n s2

/-- One event of any source: a die source reaches Whistle at once; a region source sends an INTR message, and fires
nothing while its block is powered off (R668). Where a region is off under a fence its controller, counters and regulator stay powered: sources 7
and 11 to 13 still fire (R746). -/
def raise (n : Nat) (s : State) : State :=
  if n < 1024 then fire n s
  else
    let r := (n - 1024) / 16
    let i := (n - 1024) % 16
    let x := rgnAt r s
    if x.off ∧ ¬ (x.fenced ∧ [7, 11, 12, 13].contains i) then s else say .guyline [9, r, i] s

/-- One event of region r's source i (R666, R668). -/
def fireRgn (r i : Nat) (s : State) : State := raise (rgnSrc r i) s

-- Event counters (R679–R681) -------------------------------------------------------------------------------

/-- Whether a counter's SEL word counts a code for a QUAL (R680). -/
def selCounts (sel : Word) (code qual : Nat) : Bool :=
  decide (getF sel 7 0 = code) && (decide (getF sel 12 8 = 0x1F) || decide (getF sel 12 8 = qual))

/-- Add events to counter i of a page, with the wrap of R681. -/
def counterAdd (p : Page) (valOff ovfSrc i n : Nat) (s : State) : State :=
  let v := rd64 p (valOff + 8 * i) s
  let v' := v + n
  let s1 := wr64 p (valOff + 8 * i) (v' % 2 ^ 48) s
  if v' < 2 ^ 48 then s1
  else raise ovfSrc { wb p 0x108 i true s1 with ovfNext := (p.base + i) :: s.ovfNext.filter (· ≠ p.base + i) }

/-- Count n events of a source code in the counters of a page (R679, R683). -/
def countPage (p : Page) (num valOff ovfSrc code qual n : Nat) (s : State) : State :=
  if rb p 0x100 1 s then s
  else foldRange num (fun i s =>
    if selCounts (rd p (0x140 + 4 * i) s) code qual then counterAdd p valOff ovfSrc i n s else s) s

/-- Count n events of a die-level code (R680). -/
def countDie (code qual n : Nat) (s : State) : State := countPage pgCnt 32 0x200 99 code qual n s

/-- Count n events of a region-level code (R680). -/
def countRgn (r code n : Nat) (s : State) : State := countPage (pgRcn r) 8 0x180 (rgnSrc r 12) code 0 n s

/-- Arm a command snapshot 100 periods ahead, or merge it with the one armed (R682). -/
def armSnapshot (s : State) : State :=
  match s.snapAt with
  | some _ => s
  | none => { s with snapAt := some (now s + 100) }

-- Sense triggers (R646, R648) ---------------------------------------------------------------------------------

/-- A trigger of a region's sense converter: ignored while its TEN bit is 0 or the converter is off; it starts a
run, joins one that begins at this moment, or makes a further run due during one (R648, R654). -/
def snsTrigger (r bitNo : Nat) (s : State) : State :=
  let x := rgnAt r s
  if !rb (pgSns r) 0x10C bitNo s || x.fenced || x.off || rb pgPwr 0x110 2 s || rb pgPwr 0x110 1 s then s
  else if rb (pgSns r) 0x104 3 s then
    if x.sns.injAt = now s ∧ x.sns.injPos = 0 then setRgn r { x with sns := { x.sns with cause := Nat.lor x.sns.cause (2 ^ bitNo) } } s
    else wb (pgSns r) 0x104 4 true (wb (pgSns r) 0x110 (4 + bitNo) true s)
  else
    wb (pgSns r) 0x104 3 true
      (setRgn r { x with sns := { x.sns with injPos := 0, cause := 2 ^ bitNo, injAt := now s } } s)

-- Page errors (R739–R742) ----------------------------------------------------------------------------------------

/-- Place of a die page among the page error sources 0–53 (R665). -/
def dieErrSrc (p : Nat) : Nat :=
  match (Page.die p).cls with
  | (1, _) => 0
  | (2, _) => 1
  | (3, _) => 2
  | (4, _) => 3
  | (5, _) => 4
  | (6, _) => 5
  | (7, _) => 6
  | (8, i) => 7 + i
  | (9, i) => 12 + i
  | (0x0A, i) => 20 + i
  | (0x0B, i) => 40 + i
  | (0x0C, _) => 48
  | (0x0D, _) => 49
  | (0x0E, _) => 50
  | (0x0F, _) => 51
  | (0x10, _) => 52
  | _ => 53

/-- The page error source of a page (R665–R667): a cluster page fires RGN_CLU, a region page RGN_PGERR. -/
def pageErrSrc : Page → Nat
  | .die p => dieErrSrc p
  | .rgn r _ => rgnSrc r 13
  | .clu c => rgnSrc (regionOf c) 2
  | .unit c _ => rgnSrc (regionOf c) 2

/-- The page whose PG_ERR records a page's events: the cluster page for a unit window (R749). -/
def Page.errPage : Page → Page
  | .unit c _ => .clu c
  | p => p

/-- The regions a page's SNSTRIG action reaches (R741). -/
def Page.snsRegions : Page → List Nat
  | .die _ => List.range 64
  | .rgn r _ => [r]
  | .clu c => [regionOf c]
  | .unit c _ => [regionOf c]

/-- The action of event select i of a page, when the recorded bit is in its mask (R741, R742). -/
def evselAct (p : Page) (b i : Nat) (s : State) : State :=
  let w := rd p (0x20 + 4 * i) s
  if getB w b && decide (SMap.get 0 s.evHold (p.base + i) ≤ now s) then
    let s := { s with evHold := SMap.set 0 s.evHold (p.base + i) (now s + 10 * usec) }
    match getF w 17 16 with
    | 1 => armSnapshot s
    | 2 => p.snsRegions.foldl (fun s r => snsTrigger r 3 s) s
    | _ => s
  else s

/-- PG_ERR bits (R739). -/
def errRESWR : Nat := 0
def errFIELD : Nat := 1
def errLOCKWR : Nat := 2
def errOPIGN : Nat := 3
def errPARITY : Nat := 4
def errMEM : Nat := 5
def errHDR : Nat := 6
def errBLOCK : Nat := 7
def errUNITEVT : Nat := 8

/-- Record an event in a page's PG_ERR: its bit, its count, the page's error source and the event selects
(R739–R742, R667). UNITEVT fires no page error source (R739). -/
def recordErr (page : Page) (b : Nat) (s : State) : State :=
  let p := page.errPage
  let s := bump p 0x1C 31 0 1 (wb p 0x10 b true s)
  let s := if !rb p 0x14 b s && decide (b ≠ errUNITEVT) then raise (pageErrSrc p) s else s
  foldRange 4 (evselAct p b) s

/-- Set a UNIT_EVT bit: it is reported in the cluster's PG_ERR and fires RGN_CHK or RGN_UNIT (R106, R666). -/
def unitEvt (c slot b : Nat) (s : State) : State :=
  let s := wb (.unit c slot) 0x81C b true s
  let s := recordErr (.clu c) errUNITEVT s
  fireRgn (regionOf c) (if b ≤ 1 then 0 else 1) s

end Sys2Proof.Machine
end

