-- ==== Sys2Proof/Machine/Beat.lean ====
section
/-! DEFINITION. Beats of the Portage mesh: tags, data bytes and parity as a producer puts them on a link (R324–R327), and the
unit mesh of a cluster: its routers, links and paths (R319–R321, R334). -/

namespace Sys2Proof.Machine

-- Tags (R325, R326) -----------------------------------------------------------------------------------------

/-- The 96 bits of a tag: the fields that a message's beats share, the fields of the block that the beat belongs to, FIRST, LAST and MEND. -/
def tagBits (t : Tag) (fmt cause pt sid bslot : Nat) (first last mend : Bool) : Nat :=
  t.dcl % 2 ^ 14 + t.sub % 2 ^ 10 * 2 ^ 14 + t.kind % 16 * 2 ^ 24 + t.vc % 4 * 2 ^ 28 + t.pitch % 16 * 2 ^ 30 + sid % 2 ^ 20 * 2 ^ 34 +
    pt % 2 * 2 ^ 54 + cause % 16 * 2 ^ 55 + fmt % 8 * 2 ^ 59 + b2n first * 2 ^ 62 + b2n last * 2 ^ 63 + bslot % 2 ^ 10 * 2 ^ 64 +
    t.scl % 2 ^ 14 * 2 ^ 74 + t.src % 64 * 2 ^ 88 + t.bank % 2 * 2 ^ 94 + b2n mend * 2 ^ 95

/-- FMT code of a block's carrier (R325). -/
def fmtCode (b : Blk) : Nat :=
  if isZero b then 2 else match b.fmt with
    | .a8 => 0 | .a4 => 1 | .zb => 2 | .p24 => 3 | .p16b => 4

/-- SRC of cluster machinery, a Stove, a stack controller or a port (R325). -/
def srcNone : Nat := 0x3F

-- Data and parity (R324, R325, R327) ------------------------------------------------------------------------------

/-- The parity bit of a byte: even parity over the byte and itself. -/
def parityBit (b : Byte) : Nat := sumN ((List.range 8).map (fun i => b.toNat / 2 ^ i)) % 2

/-- The parity bits of bytes, one for each, packed in order. -/
def parityBits (bs : List Byte) : List Byte :=
  leBytes ((bs.length + 7) / 8) (sumN (bs.zipIdx.map (fun (b, i) => parityBit b * 2 ^ i)))

/-- One beat as it leaves its producer: 12 tag bytes with their parity bits, and data bytes with theirs. -/
def beatBytes (tag : Nat) (data : List Byte) : List Byte :=
  let t := leBytes 12 tag
  t ++ parityBits t ++ data ++ parityBits data

/-- Data bytes of a block on a link of w bytes a beat: its header in bytes 0 and 1 of the first beat, the payload in order, zeros to the end of the
last (R324). -/
def blkData (w : Nat) (b : Blk) : List (List Byte) :=
  let bs := blkBytes b
  (List.range ((bs.length + w - 1) / w)).map (fun i => slice bs (w * i) w)

/-- The beats of a message of blocks on a link of w bytes a beat: 64 on the cluster mesh, 16 on the unit mesh (R323–R326). -/
def wire (w : Nat) (t : Tag) (blks : List Blk) : List Byte :=
  blks.zipIdx.flatMap (fun (b, k) =>
    let data := blkData w b
    data.zipIdx.flatMap (fun (d, i) =>
      let last := decide (i + 1 = data.length)
      beatBytes (tagBits t (fmtCode b) b.cause b.pt b.sid b.bslot (decide (i = 0)) last (last && decide (k + 1 = blks.length))) d))

/-- The one beat of a TOKEN, ACK or REFUSE message: data bytes 0–11 copy its tag, and a REFUSE made for a multicast target carries that cluster in
bytes 12–13 (R326, R767). The fields of a tag that belong to a block are 0 in it (log 104). -/
def controlWire (t : Tag) (target : Nat) : List Byte :=
  let tag := tagBits t t.fmt 0 0 0 0 true true true
  beatBytes tag (slice (leBytes 12 tag ++ leBytes 2 target) 0 64)

-- The unit mesh of a cluster (R319–R321, R334) -----------------------------------------------------------------------

/-- The nodes of a cluster's unit level: unit routers 0 to 63, router (ux, uy) at uy × 8 + ux, the routers of the spare slots 64 to 67, the cluster
router, and the reduction ports. -/
def nodeCluster : Nat := 68
def nodeReduce : Nat := 69

/-- The unit router that the router of spare slot 64 + n joins: (7, 2n) (R320). -/
def spareJoin (n : Nat) : Nat := 16 * n + 7

/-- Whether a link of the unit level leads from one node to another: between neighbouring routers, between the cluster router and the west port of
each row, between a spare and its router's east port, and the spur from a slot to the reduction ports (R319–R321). -/
def unitLink (a b : Nat) : Bool :=
  let row := decide (a / 8 = b / 8 ∧ (a + 1 = b ∨ b + 1 = a))
  let col := decide (a + 8 = b ∨ b + 8 = a)
  if a < 64 ∧ b < 64 then row || col
  else if a = nodeCluster then decide (b < 64 ∧ b % 8 = 0)
  else if b = nodeCluster then decide (a < 64 ∧ a % 8 = 0)
  else if b = nodeReduce then decide (a < 68)
  else if a < 64 then decide (b < 68 ∧ a = spareJoin (b - 64))
  else decide (a < 68 ∧ b < 64 ∧ b = spareJoin (a - 64))

/-- Numbers from a to b, both included, up or down. -/
def fromTo (a b : Nat) : List Nat :=
  if a ≤ b then (List.range (b - a + 1)).map (a + ·) else (List.range (a - b + 1)).map (a - ·)

/-- Unit routers from one to another, first in x, then in y (R334). -/
def xyPath (a b : Nat) : List Nat :=
  (fromTo (a % 8) (b % 8)).map (fun x => a / 8 * 8 + x) ++ ((fromTo (a / 8) (b / 8)).drop 1).map (fun y => y * 8 + b % 8)

/-- The unit router at which a slot's beats enter and leave the mesh of routers. -/
def slotRouter (k : Nat) : Nat := if k < 64 then k else spareJoin (k - 64)

/-- The nodes that a beat passes between two slots, or between a slot and the cluster router, both ends included (R334). From the cluster router it
enters at the row of its destination and travels east; to the cluster router it travels west along its own row (log 105). -/
def unitPath (a b : Nat) : List Nat :=
  let ra := if a = nodeCluster then slotRouter b / 8 * 8 else slotRouter a
  let rb := if b = nodeCluster then slotRouter a / 8 * 8 else slotRouter b
  (if ra = a then [] else [a]) ++ xyPath ra rb ++ (if rb = b then [] else [b])

/-- The links of a path of nodes. -/
def pathLinks (l : List Nat) : List (Nat × Nat) := l.zip (l.drop 1)

/-- The row of CLU_LINKSTAT.UMDOWN that a unit-level link of a cluster counts in (R321, R367): the row of its unit router; a spur's is the row of its
slot, for a spare that of the logical unit it serves. -/
def linkRow (c a b : Nat) (s : State) : Nat :=
  if b = nodeReduce ∧ 64 ≤ a then (match (unitAt c a s).serves with
    | some u => u / 8
    | none => slotRouter a / 8)
  else (if a = nodeCluster then b else slotRouter a) / 8

/-- Whether a unit-level link of a cluster is down: declared down, and its row's bit not cleared since (R344, R367). -/
def unitDown (c a b : Nat) (s : State) : Bool :=
  (cluAt c s).umDown.any (fun e => decide (e.1 = a ∧ e.2.1 = b) && rb (.clu c) 0x320 (4 + e.2.2) s)

/-- Whether some link of a path is down. -/
def pathDown (c : Nat) (l : List Nat) (s : State) : Bool := (pathLinks l).any (fun e => unitDown c e.1 e.2 s)

/-- Blocks cross the unit mesh of a cluster from a node to a node, as unit-mesh beats (R319, R324, R334). -/
def crossUnits (c a b : Nat) (t : Tag) (blks : List Blk) (s : State) : State :=
  emit { kind := .unitMesh, args := c :: unitPath a b, blks := blks, bytes := wire 16 t blks } s

end Sys2Proof.Machine
end

