-- ==== Sys2Proof/Machine/Sha3.lean ====
section
/-! DEFINITION. SHA3-512 (R11, FIPS 202), the digest of images, manifests, shards, firmware and measurements. No table of constants stands
here: the rotation offsets and the round constants are computed as the standard generates them. -/

namespace Sys2Proof.Machine

/-- A sheet, plane or line of five lanes combined bit by bit. -/
def xor5 (l : List Nat) : Nat := l.foldl Nat.xor 0

/-- Lane (x, y) of a state held row by row, both coordinates taken modulo 5. -/
def lane5 (a : List Nat) (x y : Nat) : Nat := nth 0 a (x % 5 + 5 * (y % 5))

/-- A state given lane by lane. -/
def lanes5 (f : Nat → Nat → Nat) : List Nat := (List.range 25).map (fun i => f (i % 5) (i / 5))

/-- A 64-bit lane turned up by n places. -/
def turn64 (v n : Nat) : Nat :=
  let k := n % 64
  v % 2 ^ (64 - k) * 2 ^ k + v / 2 ^ (64 - k)

/-- θ: each lane takes the parities of the column to its left, and of the one to its right a bit lower. -/
def stepTheta (a : List Nat) : List Nat :=
  let par := (List.range 5).map (fun x => xor5 ((List.range 5).map (lane5 a x)))
  lanes5 (fun x y => xor5 [lane5 a x y, nth 0 par ((x + 4) % 5), turn64 (nth 0 par ((x + 1) % 5)) 1])

/-- The walk of ρ from (1, 0): the lane visited at time t turns by (t + 1)(t + 2)/2. -/
def rhoWalk : Nat → Nat → Nat → Nat → List (Nat × Nat)
  | 0, _, _, _ => []
  | n + 1, x, y, t => (x + 5 * y, (t + 1) * (t + 2) / 2) :: rhoWalk n y ((2 * x + 3 * y) % 5) (t + 1)

/-- ρ and π: every lane turned by its offset, then lane (x, y) taken from (x + 3y, x). -/
def stepRhoPi (a : List Nat) : List Nat :=
  let r := (rhoWalk 24 1 0 0).foldl (fun l p => l.set p.1 (turn64 (nth 0 a p.1) p.2)) a
  lanes5 (fun x y => lane5 r (x + 3 * y) x)

/-- χ: a lane is inverted where the next one along its row is 0 and the one after is 1. -/
def stepChi (a : List Nat) : List Nat :=
  lanes5 (fun x y => Nat.xor (lane5 a x y) (Nat.land (Nat.xor (lane5 a (x + 1) y) (2 ^ 64 - 1)) (lane5 a (x + 2) y)))

/-- The shift register of ι, eight bits with bit 0 the output. -/
def iotaShift (v : Nat) : Nat := if 128 ≤ v then Nat.xor (2 * v) 0x171 else 2 * v

/-- ι's lane of a round and the register after it: the seven outputs of the round go to bits 0, 1, 3, 7, 15, 31 and 63. -/
def iotaLane (v : Nat) : Nat × Nat :=
  (List.range 7).foldl (fun p j => (p.1 + (p.2 % 2) * 2 ^ (2 ^ j - 1), iotaShift p.2)) (0, v)

/-- Rounds of the permutation, from a state and the register of ι. -/
def keccakRounds : Nat → List Nat → Nat → List Nat
  | 0, a, _ => a
  | n + 1, a, v =>
    let k := iotaLane v
    let a := stepChi (stepRhoPi (stepTheta a))
    keccakRounds n (a.set 0 (Nat.xor (nth 0 a 0) k.1)) k.2

/-- Keccak-f[1600]: 24 rounds. -/
def keccakF (a : List Nat) : List Nat := keccakRounds 24 a 1

/-- Bytes of a block in SHA3-512. -/
def shaRate : Nat := 72

/-- Absorb one block of 72 bytes. -/
def shaAbsorb (a : List Nat) (blk : List Byte) : List Nat :=
  keccakF (lanes5 (fun x y => Nat.xor (lane5 a x y) (leAt blk (8 * (x + 5 * y)) 8)))

/-- The message with the suffix 01 and the padding 10…01 (bits), in whole blocks. -/
def shaPad (m : List Byte) : List Byte :=
  let free := shaRate - m.length % shaRate
  m ++ leBytes free (6 + 2 ^ (8 * free - 1))

/-- The 64-byte SHA3-512 digest of a message. -/
def sha3 (m : List Byte) : List Byte :=
  let a := (chunks shaRate (shaPad m)).foldl shaAbsorb (lanes5 (fun _ _ => 0))
  (a.take 8).flatMap (leBytes 8)

end Sys2Proof.Machine
end

