-- ==== Sys2Proof/Machine/Net.lean ====
section
/-! DEFINITION. Image slots and pitches as the fabric sees them, messages a cluster sends on the Portage mesh
(R324–R338, R354), failed-verdict reports (R499–R501), error records (R526, R527) and charge given back
(R613). -/

namespace Sys2Proof.Machine

/-- An image slot. -/
def slotAt (n : Nat) (s : State) : Slot := SMap.get Slot.vacant s.slots n

/-- Store an image slot. -/
def setSlot (n : Nat) (x : Slot) (s : State) : State := { s with slots := SMap.set Slot.vacant s.slots n x }

/-- Change an image slot. -/
def updSlot (n : Nat) (f : Slot → Slot) (s : State) : State := setSlot n (f (slotAt n s)) s

/-- The clusters of a slot's pitch, in row-major order (R296, R350). -/
def slotClusters (x : Slot) : List Nat :=
  (List.range x.ph).flatMap (fun dy => (List.range x.pw).map (fun dx => (x.py0 + dy) * 128 + x.px0 + dx))

/-- The regions that hold clusters of a slot's pitch. -/
def slotRegions (x : Slot) : List Nat :=
  (List.range 64).filter (fun r =>
    decide (x.px0 < (r % 8 + 1) * 16 ∧ (r % 8) * 16 < x.px0 + x.pw ∧ x.py0 < (r / 8 + 1) * 16 ∧ (r / 8) * 16 < x.py0 + x.ph))

/-- Whether a slot's image counts as admitted: READY, RUNNING, DRAINING or ABORTING (R424, R141). -/
def SlotSt.holds (x : SlotSt) : Bool :=
  match x with
  | .ready | .running | .draining | .aborting => true
  | .empty | .checking | .ended => false

/-- The slot whose pitch index is p, among slots that hold a pitch. -/
def slotOfPitch (p : Nat) (s : State) : Option Nat :=
  firstBelow 16 (fun n => let x := slotAt n s; decide (x.st ≠ .empty ∧ x.st ≠ .checking ∧ x.pitch = p))

/-- The slot of a cluster's pitch (R350). -/
def slotOfClu (c : Nat) (s : State) : Option Nat :=
  let w := rd (.clu c) 0x318 s
  if getB w 4 then slotOfPitch (getF w 3 0) s else none

/-- A cluster's pitch index, or 0 outside every pitch. -/
def pitchOfClu (c : Nat) (s : State) : Nat := getF (rd (.clu c) 0x318 s) 3 0

/-- Whether no image is running in the cluster's pitch (R38, R293). -/
def cluIdle (c : Nat) (s : State) : Bool :=
  match slotOfClu c s with
  | none => true
  | some n => match (slotAt n s).st with
    | .running | .draining | .aborting => false
    | _ => true

/-- Whether a cluster is at a step boundary: waiting to begin a step, or running no image (R38). -/
def atBoundary (c : Nat) (s : State) : Bool := cluIdle c s || !(cluAt c s).busy

/-- Whether an image is admitted in the cluster's pitch. -/
def admitted (c : Nat) (s : State) : Bool :=
  match slotOfClu c s with
  | none => false
  | some n => (slotAt n s).st.holds

/-- Whether the device is in SERVICE (R609). -/
def inService (s : State) : Bool := rb pgPwr 0x110 1 s

/-- Whether the thermal trip is in force (R623). -/
def tripped (s : State) : Bool := rb pgPwr 0x110 2 s

/-- The physical slot that serves a logical unit of a cluster (R9, R95). -/
def physOf (c u : Nat) (s : State) : Option Nat :=
  firstBelow 68 (fun k => decide ((unitAt c k s).serves = some u))

/-- The slot that holds plane p of logical unit u of a cluster, in the sense of R424. -/
def holdsPlane (x : Slot) (c u p : Nat) : Bool :=
  x.st.holds && bit (SMap.get 0 x.place c) u &&
    (bit x.names p || bit x.planes 2 || decide (x.ptr = p) || decide ((if p = 0 then x.drain0 else x.drain1) ≠ 0) ||
      (match (if p = 0 then x.last0 else x.last1) with
       | none => false
       | some l => decide (x.floor < l + x.window)))

/-- Whether plane p of a physical slot is held (R424): a plane that an admitted image uses (R49). -/
def planeHeld (c slot p : Nat) (s : State) : Bool :=
  match (unitAt c slot s).serves with
  | none => false
  | some u => (List.range 16).any (fun n => holdsPlane (slotAt n s) c u p)

/-- Extend a measurement register by a measurement (R697): 64 zero bytes when RST_N rises. -/
def extendMeas (m : Nat) (d : List Byte) (s : State) : State :=
  let z : List Byte := List.replicate 64 0
  { s with meas := SMap.set z s.meas m (sha3 (SMap.get z s.meas m ++ d)) }

-- Blocks ------------------------------------------------------------------------------------------

/-- Cluster-mesh beats of a block (R324). -/
def beatsOf (b : Blk) : Nat :=
  if isZero b then 1 else match b.fmt with
    | .p24 | .p16b => 2
    | _ => 1



/-- A failing cause where the spec names none: free among the codes a block of the device originates. -/
def freeCause (s : State) : Nat × State := let (w, s) := takeFree s; (4 + w % 5, s)

/-- A block of a format whose values no rule fixes: mantissas within the format's range (R120, R133), a zero block where they are all zero, NH as
R121 defines it. -/
def freeBlk (fmt : BlkFmt) (s : State) : Blk × State :=
  let w (i : Nat) : Nat := (Config.freeWord (s.free + i)).toNat
  let man := (List.range 32).map (fun i => match fmt with
    | .a8 => sx 8 (w (i + 1)) | .a4 => sx 4 (w (i + 1)) | .zb => 0
    | .p24 => max (-8388607) (sx 24 (w (i + 1))) | .p16b => max (-32767) (sx 16 (w (i + 1))))
  let ufl := bit (w 33) 0
  let b := if man.all (· == 0) then zeroBlk fmt ufl 0 0 0 0
    else { fmt := fmt, exp := w 0 % 256, zb := false, sat := bit (w 33) 1, ufl := ufl,
           nh := decide (fmt = .a8) && man.all (fun m => decide (-8 ≤ m ∧ m ≤ 7)), man := man, cause := 0, pt := 0, sid := 0, bslot := 0 }
  (b, { s with free := s.free + 34 })

-- Route entries and messages (R338, R354) ------------------------------------------------------------

/-- The clusters a route entry names, in row-major order (R343, R354). -/
def routeTargets (e : Nat) : List Nat :=
  let x0 := fld e 22 16
  let y0 := fld e 29 23
  if fld e 1 0 = 2 then
    (List.range (fld e 43 37 + 1)).flatMap (fun dy => (List.range (fld e 36 30 + 1)).map (fun dx => (y0 + dy) * 128 + x0 + dx))
  else [y0 * 128 + x0]

/-- Beats injected at a cluster's router (R680). -/
def inject (c n : Nat) (s : State) : State := countRgn (regionOf c) 0x40 n s

/-- SRC of a sender within a cluster: a logical unit, or cluster machinery (R325). -/
def srcOf (who : Nat) : Nat := if who < 64 then who else srcNone

/-- The tag of a message of a cluster's sender to a destination (R325). -/
def tagTo (c who dcl kind sub vc : Nat) (s : State) : Tag :=
  { dcl := dcl, sub := sub, kind := kind, vc := vc, pitch := pitchOfClu c s, fmt := 0, scl := c, src := srcOf who, bank := (cluAt c s).bank }

/-- Put a control beat on the mesh (R326, R329): its kind, the cluster it leaves, its destination, the source's number of the message, the cluster it
speaks for, SUB, status and pitch. -/
def sendControl (c id target : Nat) (t : Tag) (s : State) : State :=
  sayBytes .control [t.kind, c, t.dcl, id, target, t.sub, t.fmt, t.pitch] (controlWire t target) (inject c 1 s)

/-- Record a message as sent: its number, and the state that waits for an answer from every target (R338, R343). -/
def openMsg (c entry kind step : Nat) (targets : List Nat) (blks : List Blk) (s : State) : Nat × State :=
  let cl := cluAt c s
  let sent : Sent := { id := cl.msgNo, entry := entry, step := step, kind := kind, targets := targets, blks := blks, since := now s, late := false }
  (cl.msgNo, setClu c { cl with msgNo := cl.msgNo + 1, sent := cl.sent ++ [sent] } s)

/-- Send one DATA message by a cluster's route entry: kept until every target has answered (R338, R343), and put on the mesh once, as its beats
(R324–R327, R341). `kind` is the tag's KIND. What DCL a multicast carries is not stated: it is the rectangle's first cluster (log 104). -/
def sendMsg (c who entry kind sub step : Nat) (blks : List Blk) (s : State) : State :=
  let e := SMap.get 0 (cluAt c s).rte entry
  let targets := routeTargets e
  let vc := if fld e 1 0 = 2 then 1 else 0
  let t := tagTo c who (targets.headD 0) kind sub vc s
  let (id, s) := openMsg c entry kind step targets blks s
  emit { kind := .portage, args := [c, id, step, kind, sub, vc, t.pitch, t.bank, entry, t.src], blks := blks, bytes := wire 64 t blks }
    (inject c (max 1 (sumN (blks.map beatsOf))) s)

/-- Send the blocks of one sender of the cluster to a REMOTE destination: DATA of the kind that the entry's TGT names
(R355). In a step executed again they are sent only when they were not sent before, or with a failed cause (R504). -/
def sendData (c who entry step : Nat) (blks : List Blk) (s : State) : State :=
  let cl := cluAt c s
  let e := SMap.get 0 cl.rte entry
  let stood := cl.log.any (fun l => decide (l.1 = step ∧ l.2.1 = who) && !l.2.2)
  if stood && decide (step < cl.peak) then s
  else
    let fail := blks.any (fun b => causeFails b.cause)
    let rest := cl.log.filter (fun l => decide (step ≤ l.1 + 128 ∧ ¬ (l.1 = step ∧ l.2.1 = who)))
    sendMsg c who entry (fld e 4 2) (fld e 14 5) step blks (setClu c { cl with log := (step, who, fail) :: rest } s)

/-- Send a completion token by a route entry, to counter `ctr` of every target (R269): a message of one beat, kept until its targets have answered
(R326, R338). -/
def sendToken (c entry ctr step : Nat) (s : State) : State :=
  let e := SMap.get 0 (cluAt c s).rte entry
  let vc := if fld e 1 0 = 2 then 1 else 0
  let (id, s) := openMsg c entry 5 step (routeTargets e) [] s
  (routeTargets e).foldl (fun s t => sendControl c id t (tagTo c srcNone t 5 ctr vc s) s) s

/-- Send a token of a Stove, a transfer or a port, by no route entry, to one cluster for a pitch (R272, R273, R471). -/
def sendTokenTo (c dcl ctr pitch step : Nat) (s : State) : State :=
  let (id, s) := openMsg c 512 5 step [dcl] [] s
  sendControl c id dcl { tagTo c srcNone dcl 5 ctr 0 s with pitch := pitch } s

-- Verdict reports and error records -----------------------------------------------------------------------

/-- Origins of R500. -/
def orgUnit : Nat := 0
def orgLockstep : Nat := 1
def orgNet : Nat := 2
def orgPantry : Nat := 3
def orgState : Nat := 4
def orgIllegal : Nat := 5
def orgRemote : Nat := 6

/-- Replayable origins (R500). -/
def replayable (o : Nat) : Bool := decide (o ≤ 3)

-- The down lane of the Guyline (R42, R359) --------------------------------------------------------------

/-- A message of the down lane at a cluster: the state in which it has its turn, none while one that the die issued before it has still to come (R42,
R359). One that the die did not issue through this lane is taken as it comes. -/
def downTurn (c : Nat) (key : List Nat) (s : State) : Option State :=
  match (cluAt c s).down with
  | [] => some s
  | k :: rest =>
    if k = key then some (updClu c (fun cl => { cl with down := rest }) s)
    else if rest.contains key then none
    else some s

/-- The words of a VERDICT message (R499). -/
def verdictWords (step gen origin cause pitch pslot : Nat) : List Nat :=
  [step % 2 ^ 32, (gen % 16) * 2 ^ 28 + origin * 2 ^ 24 + cause * 2 ^ 20 + pitch * 2 ^ 16 + (step / 2 ^ 32) % 2 ^ 16, pslot]

/-- A VERDICT of a cluster leaves (R499). -/
def sendVerdict (pitch c step origin cause pslot : Nat) (s : State) : State :=
  let s := say .guyline (8 :: 0 :: c :: verdictWords step (cluAt c s).replayGen origin cause pitch pslot) s
  if replayable origin then updClu c (fun cl => { cl with hold := true }) s else s

/-- Whether a step of a cluster is over: begun and completed. -/
def Cluster.passed (cl : Cluster) (step : Nat) : Bool := decide (step < cl.next) && !(cl.busy && decide (step + 1 = cl.next))

/-- A cluster reports a failure that it originates, and holds its step where the failure is replayable (R499, R501): one VERDICT for each read
that fails; a failure of another origin waits for the end of its step, whose failures leave in one VERDICT. A failure of a step that is over, or
of an image of another pitch, leaves at once. -/
def reportOf (pitch c step origin cause pslot : Nat) (s : State) : State :=
  if origin ≤ 1 ∨ (cluAt c s).passed step ∨ (slotOfClu c s).isNone ∨ pitch ≠ pitchOfClu c s then sendVerdict pitch c step origin cause pslot s
  else updClu c (fun cl => { cl with fails := cl.fails ++ [(step, origin, cause)] }) s

/-- A failure of the image whose pitch the cluster is in. -/
def report (c step origin cause pslot : Nat) (s : State) : State := reportOf (pitchOfClu c s) c step origin cause pslot s

/-- The origin reported for failures of several origins: the first replayable one in code order, else the lowest (R500). -/
def originFirst (l : List Nat) : Nat :=
  let r := l.filter replayable
  if r.isEmpty then l.foldl min 7 else r.foldl min 7

/-- The actions of a step have ended: its failures of other origins than a read leave in one VERDICT, with the first of their causes in the order
of R80 (R499, R500). -/
def sendFails (c step : Nat) (s : State) : State :=
  let mine := (cluAt c s).fails.filter (fun e => decide (e.1 ≤ step))
  if mine.isEmpty then s
  else
    let causes := (mine.map (·.2.2)).filter (· ≠ 0)
    sendVerdict (pitchOfClu c s) c step (originFirst (mine.map (·.2.1))) (if causes.isEmpty then 0 else causeFirst causes) 0x7F
      (updClu c (fun cl => { cl with fails := cl.fails.filter (fun e => decide (step < e.1)) }) s)

/-- What an error record names (R526). -/
structure Rec where
  kind    : Nat
  origin  : Nat := 0xFF
  cause   : Nat := 0xFF
  pitch   : Nat := 0xFF
  cluster : Nat := 0xFFFF
  pslot   : Nat := 0xFF
  rung    : Nat := 0
  step    : Nat := 0
  coord   : Nat := 0xFFFF
  bslot   : Nat := 0xFFFF
  detail  : List Byte := []

/-- The 64 bytes of an error record (R526). -/
def Rec.bytes (r : Rec) (seq time : Nat) : List Byte :=
  let head := leBytes 8 seq ++ leBytes 8 time ++ leBytes 1 r.kind ++ leBytes 1 r.origin ++ leBytes 1 r.cause ++
    leBytes 1 r.pitch ++ leBytes 2 r.cluster ++ leBytes 1 r.pslot ++ leBytes 1 r.rung ++ leBytes 6 r.step ++
    leBytes 2 r.coord ++ leBytes 2 r.bslot
  head ++ slice r.detail 0 30

/-- Queue an EVENT message of an operation (R583): beyond 4,096 waiting, an ERRREC event (0x02) is dropped and counted. -/
def pushEvent (op : Nat) (body : List Byte) (s : State) : State :=
  if s.events.length < 4096 ∨ op = 3 then { s with events := s.events ++ [(op, body)] } else bump pgDzt 0x11C 31 0 1 s

/-- A record of the Logbook is written (R686, R687, R719). -/
def logWritten (s : State) : State := bump pgLog 0x108 31 0 1 s

/-- Lantern writes an error record with the next sequence number and sends it to management software, with an ERRREC event to
the host; KINDs 2, 3 and 6 raise SE_REPLAY, SE_PERM and SE_TAINT (R526–R528, R583). Nothing is sent during SERVICE (R609). -/
def writeRec (r : Rec) (s : State) : State :=
  let seq := rd64 pgDie 0x250 s + 1
  let bs := r.bytes seq (now s)
  let s := logWritten (wr64 pgDie 0x250 seq { s with records := s.records ++ [{ seq := seq, bytes := bs, sentAt := now s }] })
  let s := if inService s then s else sayBytes .record [seq] bs s
  let s := pushEvent 2 (leBytes 1 r.kind ++ leBytes 7 0 ++ leBytes 8 seq) s
  match r.kind with
  | 2 => fire 86 s
  | 3 => fire 87 s
  | 6 => fire 88 s
  | _ => s

/-- The record and count of a NET or PANTRY failure that its replay has classified (R508). -/
def netClass (c step origin cause pitch : Nat) (perm : Bool) (s : State) : State :=
  bump pgDie (if perm then 0x23C else 0x238) 31 0 1
    (writeRec { kind := if perm then 3 else 2, origin := origin, cause := cause, pitch := pitch, cluster := c, step := step } s)

/-- A step of a cluster completes: a NET or PANTRY failure of it that a replay answers was transient (R508). -/
def netSettle (c step : Nat) (s : State) : State :=
  let hit := s.netWait.filter (fun e => e.1 = c ∧ e.2.1 = step)
  hit.foldl (fun s e => netClass c step e.2.2.1 e.2.2.2.1 e.2.2.2.2 false s)
    { s with netWait := s.netWait.filter (fun e => ¬ (e.1 = c ∧ e.2.1 = step)) }

/-- Periods in a second, and in a millisecond. -/
def second : Nat := 100000000
def millisecond : Nat := 100000

-- Charge (R613) -------------------------------------------------------------------------------------------

/-- Put charge into a region's release queue, behind what is there (R613), up to the charge that the region still holds. -/
def release (r q : Nat) (s : State) : State :=
  let x := rgnAt r s
  let q := min q (x.charge - sumN x.relq)
  if q = 0 then s else setRgn r { x with relq := x.relq ++ [q] } s

/-- A unit gives back all the charge it holds (R613). -/
def giveBack (c slot : Nat) (s : State) : State :=
  let x := unitAt c slot s
  release (regionOf c) x.holding (setUnit c slot { x with holding := 0 } s)

/-- Queue a Damper request behind those waiting in the region (R611, R765). -/
def askDamper (r : Nat) (who : Asker) (q : Nat) (s : State) : State :=
  updRgn r (fun x => { x with asks := x.asks ++ [{ who := who, whole := q, got := 0 }] }) s

end Sys2Proof.Machine
end

