-- ==== Sys2Proof/Machine/Port.lean ====
section
/-! DEFINITION. Flits and their way out of a Ralpor port (R446–R457). -/

namespace Sys2Proof.Machine

/-- A port. -/
def portAt (p : Nat) (s : State) : Port := SMap.get Port.empty s.ports p

/-- Store a port. -/
def setPort (p : Nat) (x : Port) (s : State) : State := { s with ports := SMap.set Port.empty s.ports p x }

/-- Change a port. -/
def updPort (p : Nat) (f : Port → Port) (s : State) : State := setPort p (f (portAt p s)) s

/-- Codes of RLP_STAT.STATE (R488). -/
def lsDown : Nat := 0
def lsTrain : Nat := 1
def lsIdent : Nat := 2
def lsUp : Nat := 3
def lsDegraded : Nat := 4
def lsMismatch : Nat := 5

/-- The link state of a Ralpor port. -/
def linkState (p : Nat) (s : State) : Nat := rf (pgRlp p) 0x104 2 0 s

/-- Whether a Ralpor port carries traffic (R452). -/
def portUp (p : Nat) (s : State) : Bool := decide (linkState p s = lsUp ∨ linkState p s = lsDegraded)

/-- Flit types (R457). -/
def ftIdle : Nat := 0
def ftData : Nat := 1
def ftRecall : Nat := 2
def ftShreq : Nat := 3
def ftShdata : Nat := 4
def ftShref : Nat := 5
def ftLinkctl : Nat := 6
def ftRollcall : Nat := 7
def ftMirror : Nat := 8
def ftHeart : Nat := 9

/-- The device's coordinate as a flit codes it (R456). -/
def myCoord (s : State) : Nat := rf pgTop 0x100 9 0 s

/-- A flit of a type between direct neighbours, with its body (R456, R463). -/
def nearFlit (type vc : Nat) (body : List Byte) (s : State) : Flit :=
  { type := type, early := false, last := false, lseq := 0, vc := vc, dst := 0, src := myCoord s, spid := 0xFF, fmt := 0,
    dcl := 0, sub := 0, kind := 0, sid := 0, cause := 0, pt := 0, step := 0, slot := 0, nblk := 0, tokc := 0, crcOk := true,
    body := body }

/-- The header of a flit as numbers, after its port. -/
def flitArgs (p : Nat) (f : Flit) : List Nat :=
  [p, f.type, b2n f.early + 2 * b2n f.last, f.lseq, f.vc, f.dst, f.src, f.spid, f.fmt, f.dcl, f.kind * 2 ^ 10 + f.sub, f.sid,
   f.cause + 16 * f.pt, f.step, f.slot, f.nblk, f.tokc]

/-- A flit of 640 bytes (R456). The CRC covers bytes 0–1 and 4–639, so a transit's LSEQ does not change it (R458); one that does not pass is
another, which the spec does not state: a free value, the same for the same flit (log 110). -/
def flitWire (f : Flit) : List Byte :=
  let head := leBytes 1 f.type ++ leBytes 1 (b2n f.early + 2 * b2n f.last)
  let rest := leBytes 2 f.dst ++ leBytes 2 f.src ++ leBytes 1 f.spid ++ leBytes 1 f.fmt ++ leBytes 2 f.dcl ++
    leBytes 2 (f.sub % 1024 + f.kind % 16 * 1024) ++ leBytes 3 f.sid ++ leBytes 1 (f.cause % 16 + f.pt % 2 * 16) ++ leBytes 6 f.step ++
    leBytes 2 f.slot ++ leBytes 1 f.nblk ++ leBytes 1 f.tokc
  let body := slice f.body 0 608
  let crc := crc32c (head ++ rest ++ leBytes 4 0 ++ body)
  head ++ leBytes 2 (f.lseq % 4096 + f.vc % 4 * 4096) ++ rest ++ leBytes 4 (if f.crcOk then crc else (crc + 1 + (Config.freeAt [110, crc]).toNat % (2 ^ 32 - 1)) % 2 ^ 32) ++ body

/-- Put a flit on a port's wire (R456). -/
def flitOut (p : Nat) (f : Flit) (s : State) : State := sayBytes .flit (flitArgs p f) (flitWire f) s

/-- XOFF of a port, one bit for each VC (R450): set while fewer than 512 of the VC's 1,024 flits of ingress buffer are free. A flit that came by this
port and waits at the port it leaves by holds its place. -/
def xoffOut (p : Nat) (s : State) : Nat :=
  let held := (portAt p s).transit.filter (fun e => (portAt e.1 s).wait.contains e.2.2)
  sumN ((List.range 3).map (fun v => if 512 < (held.filter (fun e => e.2.1 = v)).length then 2 ^ v else 0))

/-- Whether a port may send a flit now: the link state allows its type, its VC is not stopped by XOFF, the replay buffer
has room, and no SERVICE (R448, R450, R452, R609). -/
def maySend (p : Nat) (f : Flit) (s : State) : Bool :=
  (portUp p s || ((linkState p s == lsMismatch || linkState p s == lsIdent) && f.type == ftLinkctl)) && !bit (portAt p s).xoff f.vc &&
    decide ((portAt p s).replay.length < 1024) && !inService s

/-- Send one flit: numbered, and kept in the replay buffer (R448). -/
def sendNow (p : Nat) (f : Flit) (s : State) : State :=
  let x := portAt p s
  let f := { f with lseq := x.seqOut }
  let s := setPort p { x with seqOut := (x.seqOut + 1) % 4096, replay := x.replay ++ [(f, now s)] } s
  flitOut p f (countDie 0x90 p 1 s)

/-- Send what may leave of a port's waiting flits, in order within each VC; `fuel` bounds their number. -/
def drainLoop : Nat → Nat → State → State
  | 0, _, s => s
  | fuel + 1, p, s =>
    match (portAt p s).wait.find? (fun f => maySend p f s) with
    | none => s
    | some f => drainLoop fuel p (sendNow p f (updPort p (fun x => { x with wait := x.wait.erase f }) s))

/-- Send what may leave of a port's waiting flits. -/
def drainPort (p : Nat) (s : State) : State := drainLoop (portAt p s).wait.length p s

/-- Queue a flit at a port, and send it as soon as it may leave (R455). -/
def sendFlit (p : Nat) (f : Flit) (s : State) : State := drainPort p (updPort p (fun x => { x with wait := x.wait ++ [f] }) s)

/-- Forward a flit that came by port p on VC vc: while it waits it keeps its place in p's ingress buffer (R450). -/
def passFlit (p vc out : Nat) (f : Flit) (s : State) : State :=
  let s := sendFlit out f s
  if (portAt out s).wait.contains f then
    updPort p (fun x => { x with transit := x.transit.filter (fun e => (portAt e.1 s).wait.contains e.2.2) ++ [(out, vc, f)] }) s
  else s

end Sys2Proof.Machine
end

