-- ==== Sys2Proof/Machine/Ring.lean ====
section
/-! DEFINITION. A unit's read: inputs, conversion, the ring, checks and confidence repeats (R53–R81), the output
of the ring (R134, R143), reference tracking (R174, R175, R178, R179) and the suspect ladder (R508, R513–R515). -/

namespace Sys2Proof.Machine

/-- What one sub-read gives: y in 1/8 LSB, its cause, clipped columns, attempts made, failing groups with d[g] in
1/8 LSB, failing reference columns, and reference sums with their ideals in 1/8 LSB. -/
structure SubRes where
  y8     : List Int
  cause  : Nat
  clips  : List Nat
  tries  : Nat
  groups : List (Nat × Int)
  refs   : List Nat
  ref8   : List Int
  ideal8 : List Int
deriving DecidableEq, Repr

/-- Settings of a read: its range, trims and checks (R61, R70, R75, R76, R81, R168). -/
structure ReadCfg where
  k       : Nat
  a4      : Bool
  refTol  : Nat
  tol     : Nat
  repeats : Nat
  refEn   : Bool
  chkEn   : Bool
  zp      : Nat
  trims   : Trims
deriving DecidableEq, Repr

/-- Level of a cell: column c of a row (R43). -/
def cellLevel (pl : Plane) (r c : Nat) : Nat := nth 0 (SMap.get Row.empty pl.rows r).levels c

/-- Bit-planes that some row drives (R57). -/
def activeBps (a4 : Bool) (x : List Int) : List Nat :=
  (List.range (if a4 then 4 else 8)).filter (fun b => x.any (fun v => rowBit v b))

/-- Rows driven in a bit-plane. -/
def drivenRows (x : List Int) (b : Nat) : List Nat := (x.zipIdx.filter (fun (v, _) => rowBit v b)).map (·.2)

/-- The deviation given for one conversion, in 1/256 code (R162): what noise, temperature, drift and age add to the trimmed current. -/
def devOf (errs : List ConvErr) (att sub c b : Nat) : Int :=
  match errs.find? (fun e => e.attempt = att ∧ e.sub = sub ∧ e.col = c ∧ e.bp = b) with
  | none => 0
  | some e => e.dev

/-- The unlimited code of a conversion (R61, R62, R168, R169): the column current, L + 1 current units for each driven cell at level L (R44),
scaled by (1 + 0.001 EFF) and the converter's gain trim and divided by LSB_k, with the offset trim and the conversion's deviation, to the
nearest integer. DESIGN CHOICE (entry 83): halfway between two codes the even one is taken; R62 says only "nearest". -/
def rawCode (pl : Plane) (k : Nat) (tr : Trims) (errs : List ConvErr) (att sub c b : Nat) (rows : List Nat) : Int :=
  let i := sumN (rows.map (fun r => cellLevel pl r c + 1))
  let w := SMap.get 0 tr.cols c
  let drive : Int := (1000 + tr.eff) * (1000 + sx 6 (fld w 13 8))
  rneDiv ((i * 2 ^ k * 64 : Nat) * drive + (16 * sx 6 (fld w 5 0) + devOf errs att sub c b) * 1000000) 256000000

/-- The code delivered, and whether it clipped (R62–R64). -/
def convert (raw : Int) : Int × Bool := (clampI 0 127 raw, decide (127 < raw))

/-- Column sums of one attempt and its clipped columns (R69 step 1). -/
def columnSums (pl : Plane) (cfg : ReadCfg) (x : List Int) (errs : List ConvErr) (att sub : Nat) : List Int × List Nat :=
  let bps := (activeBps cfg.a4 x).map (fun b => (b, drivenRows x b))
  let cols := (List.range 136).map (fun c =>
    bps.foldl (fun (a : Int × Bool) (b, rows) =>
      let (code, clip) := convert (rawCode pl cfg.k cfg.trims errs att sub c b rows)
      (a.1 + bpWeight cfg.a4 b * code, a.2 || clip)) (0, false))
  (cols.map (·.1), (cols.zipIdx.filter (fun (a, _) => a.2)).map (·.2))

/-- Reference columns of the zero point (R114). -/
def zpCols (zp : Nat) : List Nat := if zp < 4 then [zp] else [zp - 4, zp - 3]

/-- ideal[j] in 1/8 LSB (R69). -/
def ideal8 (k : Nat) (xsum : Int) (j : Nat) : Int := (j + 1 : Nat) * xsum * (2 ^ k * 2 : Nat)

/-- y of the 132 data and checksum columns, and the reference sums, in 1/8 LSB (R69 step 2, R71). -/
def ringY (cfg : ReadCfg) (xsum : Int) (sums : List Int) (clips : List Nat) : List Int × List Int :=
  let refs := (List.range 4).map (fun j => 8 * nth 0 sums (132 + j))
  let zs := (zpCols cfg.zp).map (fun j => if clips.contains (132 + j) then ideal8 cfg.k xsum j else nth 0 refs j)
  let z := sumI zs / (zs.length : Int)
  ((List.range 132).map (fun c => 8 * nth 0 sums c - z), refs)

/-- xe[g] (R69 step 3, R72). -/
def xeOf (pl : Plane) (x : List Int) (g : Nat) : Int :=
  sumI (x.zipIdx.map (fun (v, r) => v * nth 0 (SMap.get Row.empty pl.rows r).res g))

/-- d[g] in 1/8 LSB (R69). -/
def dOf (pl : Plane) (cfg : ReadCfg) (x y8 : List Int) (g : Nat) : Int :=
  sumI ((y8.drop (32 * g)).take 32) - 32 * nth 0 y8 (128 + g) - xeOf pl x g * (2 ^ cfg.k * 2 : Nat)

/-- Reference columns that fail the reference check (R70, R71, R81). -/
def refFails (cfg : ReadCfg) (xsum : Int) (refs : List Int) (clips : List Nat) : List Nat :=
  if !cfg.refEn then []
  else (List.range 4).filter (fun j => !clips.contains (132 + j) &&
    decide (8 * cfg.refTol < (nth 0 refs j - ideal8 cfg.k xsum j).natAbs))

/-- Groups that fail the checksum, with d[g] (R75, R81). -/
def groupFails (pl : Plane) (cfg : ReadCfg) (x y8 : List Int) : List (Nat × Int) :=
  if !cfg.chkEn then []
  else ((List.range 4).map (fun g => (g, dOf pl cfg x y8 g))).filter (fun (_, d) => decide (2 * cfg.tol < d.natAbs))

/-- Whether a group has a clipped data or checksum column (R77). -/
def groupClipped (clips : List Nat) (g : Nat) : Bool := clips.any (fun c => c / 32 == g && decide (c < 128) || c == 128 + g)

/-- The average of n sums in 1/8 LSB, kept to two fractional bits, ties to even (R76). -/
def avg8 (n : Nat) (sum8 : Int) : Int := 2 * rneDiv sum8 (2 * n)

/-- A sub-read with its confidence repeats (R69–R81): attempt `att` after sums `acc` of the attempts before it. DESIGN CHOICE (entry 84): R76
states how y_c is averaged and re-evaluates the reference check "on the averages"; the reference sums are averaged in the same way, and a
column that clipped in any read so far counts as clipped. -/
def subReadLoop (pl : Plane) (cfg : ReadCfg) (x : List Int) (errs : List ConvErr) (base sub : Nat) :
    Nat → Nat → List Int → List Int → List Nat → SubRes
  | fuel, att, accY, accR, clips0 =>
    let xsum := sumI x
    let (sums, clips1) := columnSums pl cfg x errs (base + att) sub
    let clips := clips0 ++ clips1.filter (fun c => !clips0.contains c)
    let (y, refs) := ringY cfg xsum sums clips1
    let accY := if att = 0 then y else List.zipWith (· + ·) accY y
    let accR := if att = 0 then refs else List.zipWith (· + ·) accR refs
    let y8 := if att = 0 then y else accY.map (avg8 (att + 1))
    let r8 := if att = 0 then refs else accR.map (avg8 (att + 1))
    let rf := refFails cfg xsum r8 clips
    let gf := groupFails pl cfg x y8
    let hard := gf.filter (fun (g, _) => !groupClipped clips g)
    let res (cause : Nat) : SubRes :=
      { y8 := y8, cause := cause, clips := clips, tries := att + 1, groups := hard, refs := rf, ref8 := r8,
        ideal8 := (List.range 4).map (ideal8 cfg.k xsum) }
    if rf.isEmpty && hard.isEmpty then
      res (causeFirst ([if att = 0 then causePass else causeRepeat] ++ (if gf.isEmpty then [] else [causeClipped])))
    else match fuel with
      | 0 => res (causeFirst ((if rf.isEmpty then [] else [causeReference]) ++ (if hard.isEmpty then [] else [causeChecksum])))
      | fuel + 1 => subReadLoop pl cfg x errs base sub fuel (att + 1) accY accR clips

/-- A sub-read from its first attempt. -/
def subRead (pl : Plane) (cfg : ReadCfg) (x : List Int) (errs : List ConvErr) (base sub : Nat) : SubRes :=
  subReadLoop pl cfg x errs base sub cfg.repeats 0 [] [] []

/-- The words of a slot's UNIT_CTRIM registers that are not zero, by column (R196). -/
def trimWords (c slot : Nat) (s : State) : SMap Nat :=
  let b := (Page.unit c slot).base + 0x900
  (s.regs.filter (fun e => decide (b ≤ e.1 ∧ e.1 < b + 4 * 136))).map (fun e => ((e.1 - b) / 4, e.2.toNat))

/-- The trims of a plane of a slot as its registers hold them (R168, R196, R197). -/
def trimsOf (c slot p : Nat) (s : State) : Trims :=
  { eff := sx 9 (rf (.unit c slot) (0xB40 + 4 * p) 25 17 s), cols := trimWords c slot s }

/-- The settings of a read of a plane of a slot with the trims that it took (R61, R81, R103, R104, R114, R170). -/
def readCfg (c slot p k : Nat) (a4 : Bool) (tr : Trims) (s : State) : ReadCfg :=
  let u := Page.unit c slot
  let ctrl := rd u 0x804 s
  let tol := rd u (0x810 + 4 * p) s
  let fmt := getF (rd u 0x80C s) (if p = 0 then 6 else 10) (if p = 0 then 4 else 8)
  { k := k, a4 := a4, refTol := getF tol 23 16, tol := getF tol 15 0, repeats := getF ctrl 3 2, refEn := getB ctrl 5,
    chkEn := getB ctrl 4, zp := rf (.clu c) (0x1C0 + 8 * fmt) 22 20 s, trims := tr }

/-- The trims of a read start: EFF of the plane with its clamp, and the margin code in force with its peak (R90,
R91, R105, R169, R170, R197). -/
def startTrims (c slot p : Nat) (s : State) : State :=
  let u := Page.unit c slot
  let w := rd u (0xB40 + 4 * p) s
  let band := sx 9 (rf (pgTrm (regionOf c)) (0x110 + 4 * zoneOf c) 24 16 s)
  let sum := sx 8 (getF w 7 0) + band + sx 6 (getF w 13 8)
  let clamp := decide (sum < -256 ∨ 255 < sum)
  let s := wb u (0xB40 + 4 * p) 31 clamp (wf u (0xB40 + 4 * p) 25 17 (tc 9 (clampI (-256) 255 sum)) s)
  let s := if clamp then fireRgn (regionOf c) 4 s else s
  let m := rd u 0x818 s
  if getF m 10 8 < getF m 2 0 then wf u 0x818 10 8 (getF m 2 0) s else s

/-- The descriptor that an action's pair names in a cluster, under the recipe sampled for its layer (R140,
R159). -/
def descFor (c pair : Nat) (wide : Bool) (s : State) : Desc :=
  descOf (rd (.clu c) (0x200 + 4 * (if wide then pair + 4 else pair)) s)

/-- The index of that descriptor. -/
def descIdx (pair : Nat) (wide : Bool) : Nat := if wide then pair + 4 else pair

/-- Whether the recipe in force for a pair's layer is the wide one (R140, R159). -/
def wideFor (c pair : Nat) (s : State) : Bool :=
  let layer := (descOf (rd (.clu c) (0x200 + 4 * pair) s)).layer
  SMap.get 0 (cluAt c s).recipes layer == 1

/-- A curve table's EIN, EOUT and segments, where a descriptor names one (R146). -/
def curveOf (c n : Nat) (s : State) : Option (Nat × Nat × (Nat → Word)) :=
  if n = 0 ∨ n = 3 then none
  else
    let h := rd (.clu c) (0x240 + 4 * (n - 1)) s
    let tbl := (cluAt c s).curves
    some (getF h 7 0, getF h 15 8, fun i => SMap.get 0 tbl ((n - 1) * 256 + i))

/-- Add precision events to a cluster's counts: kind 0 SAT, 1 UFL, 2 CLIP, 3 ALN, by layer (R151). -/
def countPrec (c layer kind n : Nat) (s : State) : State :=
  if n = 0 then s else updClu c (fun cl => { cl with counts := SMap.upd 0 cl.counts (layer * 4 + kind) (· + n) }) s

/-- Count a produced block's SAT and UFL (R151). -/
def countBlk (c layer : Nat) (b : Blk) (s : State) : State :=
  countPrec c layer 1 (b2n b.ufl) (countPrec c layer 0 (b2n b.sat) s)

/-- Finish a P24 block under a descriptor: requantise it, or leave it as P24 (R140, R142, R143). -/
def postOp (c : Nat) (d : Desc) (site origin sid step pos : Nat) (b : Blk) (s : State) : Blk :=
  if d.owidth = 0 then b
  else requant d (curveOf c d.curve s) b (fun i => some (draw16 site origin sid step (pos + i)))

-- Suspect ladder (R513, R514) -----------------------------------------------------------------------

/-- The IDLE spare of a cluster with the least wear over the planes that it will program, the lowest on a tie (R425). -/
def pickSpare (c : Nat) (planes : List Nat) (s : State) : Option Nat :=
  let wear (n : Nat) := sumN (planes.map (fun p => (rd (.unit c (64 + n)) (0x834 + 4 * p) s).toNat))
  match (List.range 4).filter (fun n => decide (rf (.clu c) (0x180 + 4 * n) 18 16 s = 0 ∧ rf (.clu c) (0x180 + 4 * n) 10 8 s = 0)) with
  | [] => none
  | n0 :: ns => some (ns.foldl (fun a n => if wear n < wear a then n else a) n0)

/-- Order a spare's substitution for a logical unit, with the planes that it carries (R95). -/
def spareFill (c slot n l : Nat) (planes : List Nat) (s : State) : State :=
  let s := wr (.clu c) (0x180 + 4 * n) (word (1 * 2 ^ 16 + 1 * 2 ^ 8 + l)) s
  planes.foldl (fun s p =>
    if ((unitAt c slot s).plane p).st = .resident then
      updRgn (regionOf c) (fun x => { x with queue := x.queue ++ [{ unit := ukey c (64 + n), plane := p, kind := .spare }] }) s
    else s) s

/-- A load, a substitution or a refresh finds no spare while a stress test of the cluster holds one: the test ends with its phase (R519). -/
def wantSpare (c : Nat) (s : State) : State :=
  { s with stress := s.stress.map (fun t => if t.c = c then { t with wanted := true } else t) }

/-- Apply one rung of the ladder to a unit; answers false where the rung is skipped. Rungs 3 and 4 order the
substitution and the fence, which take effect at the step boundary. -/
def applyRung (c slot rung : Nat) (s : State) : Bool × State :=
  let u := Page.unit c slot
  let r := regionOf c
  match rung with
  | 1 =>
    let code := rf u 0x818 2 0 s
    if code = 7 then (false, s) else (true, wf u 0x818 2 0 (code + 1) s)
  | 2 =>
    let w := rd (pgIvr r) 0x100 s
    let code := sx 6 (getF w 5 0) + 4
    if sx 6 (getF w 13 8) < code then (false, s) else (true, wf (pgIvr r) 0x100 5 0 (tc 6 code) s)
  | 3 =>
    let planes := (List.range 2).filter (fun p => ((unitAt c slot s).plane p).st = .resident)
    match pickSpare c planes s, (unitAt c slot s).serves with
    | some n, some l => (true, spareFill c slot n l planes s)
    | _, _ => (false, wantSpare c s)
  | _ => (true, wb u 0x804 0 true s)

/-- Climb to the first rung from `rung` on that is not skipped, record it and raise SE_SUSPECT (R514, R515). -/
def climb : Nat → Nat → Nat → Nat → State → Nat × State
  | 0, _, _, rung, s => (rung, s)
  | fuel + 1, c, slot, rung, s =>
    if 4 < rung then (4, s)
    else
      let (done, s1) := applyRung c slot rung s
      if done then
        (rung, fire 84 (writeRec { kind := 7, cluster := c, pslot := slot, rung := rung, pitch := pitchOfClu c s } s1))
      else climb fuel c slot (rung + 1) s

/-- Where an entry for a unit goes in the suspect table (R513): its own entry, a free one, or the entry of rung 0 whose window opened
earliest; with none, SE_SUSFULL is raised. -/
def takeSuspect (fresh : Suspect) (s : State) : Option (Nat × Suspect) × State :=
  match s.suspects.findIdx? (fun e => e.unit = fresh.unit) with
  | some i => (some (i, nth fresh s.suspects i), s)
  | none =>
    if s.suspects.length < 256 then (some (s.suspects.length, fresh), { s with suspects := s.suspects ++ [fresh] })
    else
      match s.suspects.zipIdx.filter (fun (x : Suspect × Nat) => x.1.rung = 0) with
      | [] => (none, fire 83 s)
      | z :: zs => (some ((zs.foldl (fun (a b : Suspect × Nat) => if b.1.openedAt < a.1.openedAt then b else a) z).2, fresh), s)

/-- The rung of a unit's suspect entry, 0 without one (R513). -/
def rungOf (c slot : Nat) (s : State) : Nat := ((s.suspects.find? (fun e => e.unit = ukey c slot)).map (·.rung)).getD 0

/-- A transient or permanent failure of a unit against its suspect entry (R513, R514). A transient climbs within the window; a failure whose
replay tried a rung tries the next one. -/
def suspect (c slot : Nat) (perm trial : Bool) (s : State) : State :=
  let key := ukey c slot
  let reads := rd64 (.unit c slot) 0x824 s
  let window := rf pgDie 0x208 31 16 s * 1000000
  let n := rf pgDie 0x208 3 0 s
  let s := bump pgDie (if perm then 0x23C else 0x238) 31 0 1 s
  let fresh : Suspect := { unit := key, perm := false, rung := 0, count := 0, start := reads, openedAt := now s }
  let (place, s) := takeSuspect fresh s
  match place with
  | none => s
  | some (i, e) =>
    let open_ := decide (reads ≤ e.start + window)
    let e := if perm then { e with perm := true }
      else if open_ then { e with count := min 15 (e.count + 1) }
      else { e with count := 1, start := reads, openedAt := now s }
    let climbs := perm || trial || decide (e.rung = 0 ∧ n ≤ e.count) || (decide (0 < e.rung) && open_)
    let (rung, s) := if climbs ∧ e.rung < 4 then climb 5 c slot (e.rung + 1) s else (e.rung, s)
    { s with suspects := setNth s.suspects i { e with rung := rung } }

/-- Classify the replay of a failed read (R508): the same groups with the same sign of d[g] within T, or the same
reference columns. -/
def samFailure (old : FailRec) (groups : List (Nat × Int)) (refs : List Nat) (tol : Nat) : Bool :=
  (!old.groups.isEmpty && decide (old.groups.length = groups.length) &&
    (old.groups.zip groups).all (fun (a, b) => decide (a.1 = b.1 ∧ (0 ≤ a.2 ↔ 0 ≤ b.2) ∧ (b.2 - a.2).natAbs ≤ 2 * tol))) ||
  (!old.refs.isEmpty && decide (old.refs = refs))

/-- Keep a failed read for the classification of its replay (R508). -/
def keepFail (f : FailRec) (s : State) : State := { s with failRecs := s.failRecs ++ [f] }

/-- What a completed read means for the ladder: the classification of a replay, or a failure made final without
one (R508, R513). The rung whose replay passes is kept, and nothing else follows (R514). -/
def ladder (c slot step origin cause : Nat) (failed : Bool) (groups : List (Nat × Int)) (refs : List Nat) (tol : Nat) (s : State) : State :=
  let key := ukey c slot
  let canReplay := match slotOfClu c s with
    | none => false
    | some n => let x := slotAt n s; decide (x.slack ≤ x.window)
  let new (trial : Bool) : FailRec := { unit := key, step := step, origin := origin, cause := cause, groups := groups, refs := refs, trial := trial }
  match s.failRecs.find? (fun f => f.unit = key ∧ f.step = step) with
  | some f =>
    let s := { s with failRecs := s.failRecs.filter (fun f => ¬ (f.unit = key ∧ f.step = step)) }
    if f.trial && !failed then s
    else
      let perm := failed && samFailure f groups refs tol
      let s := writeRec { kind := if perm then 3 else 2, origin := f.origin, cause := f.cause, cluster := c, pslot := slot,
                          rung := rungOf c slot s, step := step, pitch := pitchOfClu c s } s
      let s := suspect c slot perm f.trial s
      if failed then keepFail (new (perm || f.trial)) s else s
  | none =>
    if !failed then s
    else if canReplay then keepFail (new false) s
    else suspect c slot false false s

-- Reference tracking (R174, R175) ------------------------------------------------------------------------

/-- Index of the tracking set of a plane among a slot's calibration sets. -/
def trkSet (p : Nat) : Nat := 5 + p

/-- The stale and failure fields of UNIT_CALSTAT from a slot's sets (R179, R201). -/
def calStat (c slot : Nat) (s : State) : State :=
  let x := unitAt c slot s
  let st (i : Nat) := (SMap.get CalSet.empty x.cal i).stale
  let worst := (List.range 7).foldl (fun a i => max a (SMap.get CalSet.empty x.cal i).fails) 0
  let u := Page.unit c slot
  let s := wb u 0xB60 1 (st 0) s
  let s := wb u 0xB60 2 (st 1 || st 2) s
  let s := wb u 0xB60 4 (st 3 || st 4) s
  let s := wb u 0xB60 3 (st 5 || st 6) s
  wf u 0xB60 15 12 (min 15 worst) s

/-- A failed measurement of a set: stale, one more consecutive failure, TRM_STALE at 16 (R179, R211). -/
def calFail (c slot i : Nat) (s : State) : State :=
  let x := unitAt c slot s
  let k := SMap.get CalSet.empty x.cal i
  let k' := { k with stale := true, fails := k.fails + 1, retries := 0, chunks := [], takes := [] }
  let s := setUnit c slot { x with cal := SMap.set CalSet.empty x.cal i k' } s
  let s := bump (pgTrm (regionOf c)) 0x15C 31 0 1 s
  let s := if k'.fails = 16 then fireRgn (regionOf c) 5 s else s
  calStat c slot s

/-- An accepted measurement of a set clears its stale bit and its count (R179); the unit's count of accepted
calibrations and its time are those of R201 and R202, for the tasks COL, REF and RES. -/
def calAccept (c slot i : Nat) (s : State) : State :=
  let x := unitAt c slot s
  let s := setUnit c slot { x with cal := SMap.set CalSet.empty x.cal i CalSet.empty } s
  let s := if i < 5 then wr64 (.unit c slot) 0xB64 (now s) (bump (.unit c slot) 0xB60 31 16 1 s) else s
  calStat c slot s

/-- Change TRACK after two agreeing windows (R175, R197). -/
def trackAdjust (c slot p : Nat) (g1 g2 : Int) (s : State) : State :=
  let u := Page.unit c slot
  let trm := pgTrm (regionOf c)
  let thresh : Int := rf trm 0x150 7 0 s
  let maxStep : Int := rf trm 0x150 15 8 s
  let mean2 := g1 + g2   -- twice the mean, in 0.01 %
  if !rb trm 0x100 1 s || decide (((g1.natAbs + g2.natAbs : Nat) : Int) ≤ 2 * thresh) then s
  else
    let delta := clampI (-maxStep) maxStep (-(rneDiv mean2 20))
    if delta = 0 then s
    else
      let t := sx 6 (rf u (0xB40 + 4 * p) 13 8 s) + delta
      let s := wf u (0xB40 + 4 * p) 13 8 (tc 6 (clampI (-32) 31 t)) s
      let s := wb u (0xB40 + 4 * p) 31 (decide (t < -32 ∨ 31 < t)) s
      let s := wf u (0xB50 + 4 * p) 23 16 0 s
      updPlane c slot p (fun y => { y with accDev := 0, accIdeal := 0, window := none }) s

/-- A latched window against the pair in progress (R175, R178, R179). -/
def trackWindow (c slot p : Nat) (gerr : Int) (s : State) : State :=
  let pl := (unitAt c slot s).plane p
  let trm := pgTrm (regionOf c)
  match pl.window with
  | none => updPlane c slot p (fun y => { y with window := some gerr }) s
  | some g1 =>
    let retries := rf trm 0x100 19 16 s
    let s := updPlane c slot p (fun y => { y with window := none }) s
    -- |ΔGERR| × 127 ≤ AGREE: GERR in 0.01 %, AGREE in 1/16 LSB
    let agree := decide ((gerr - g1).natAbs * 127 * 16 ≤ rf trm 0x100 15 8 s * 10000)
    let s := if pl.disagree = 0 then s else bump trm 0x160 31 0 1 s
    if agree then
      let s := updPlane c slot p (fun y => { y with disagree := 0 }) s
      trackAdjust c slot p g1 gerr (calAccept c slot (trkSet p) s)
    else if retries ≤ pl.disagree then
      calFail c slot (trkSet p) (updPlane c slot p (fun y => { y with disagree := 0 }) s)
    else updPlane c slot p (fun y => { y with disagree := y.disagree + 1 }) s

/-- Add a passing non-null read to the plane's window, and latch the window when it is full (R174). A fenced
slot and a slot under test are not tracked (R180). DESIGN CHOICE (entry 89): GERR is rounded to the nearest 0.01 %, ties to even, and
limited to its 16 bits, and the sums of a repeated read are the averages of its attempts; R174 states none of these. -/
def trackRead (c slot p : Nat) (r : SubRes) (s : State) : State :=
  let x := unitAt c slot s
  if x.fenced || x.underTest then s
  else
    let u := Page.unit c slot
    let js := (List.range 4).filter (fun j => !r.clips.contains (132 + j))
    let dev := sumI (js.map (fun j => nth 0 r.ref8 j - nth 0 r.ideal8 j))
    let idl := sumI (js.map (fun j => nth 0 r.ideal8 j))
    let pl := x.plane p
    let n := rf u (0xB50 + 4 * p) 23 16 s + 1
    let dev := pl.accDev + dev
    let idl := pl.accIdeal + idl
    if n < rf (pgTrm (regionOf c)) 0x150 23 16 s then
      updPlane c slot p (fun y => { y with accDev := dev, accIdeal := idl }) (wf u (0xB50 + 4 * p) 23 16 n s)
    else
      let s := updPlane c slot p (fun y => { y with accDev := 0, accIdeal := 0 }) (wf u (0xB50 + 4 * p) 23 16 0 s)
      if idl = 0 then s
      else
        let g := clampI (-32768) 32767 (if 0 < idl then rneDiv (dev * 10000) idl.toNat else rneDiv (-dev * 10000) (-idl).toNat)
        trackWindow c slot p g (wf u (0xB50 + 4 * p) 15 0 (tc 16 g) s)

-- Check reads (R426) ---------------------------------------------------------------------------------------

/-- Inputs of check read i, 1 to 4 (R426). -/
def checkInput (i : Nat) : List Int :=
  (List.range 128).map (fun r => match i with
    | 1 => if r < 64 then 1 else 0
    | 2 => if 64 ≤ r then 1 else 0
    | 3 => if r % 2 = 0 then -1 else 0
    | _ => if r % 2 = 1 then -1 else 0)

-- Records of a read (R65, R106–R109) ---------------------------------------------------------------------

/-- Counters and records of a completed non-null read (R65, R106–R109, R680). -/
def readRecords (c slot cause : Nat) (clips : List Nat) (tries bps skips : Nat) (refF grpF : Bool) (s : State) : State :=
  let u := Page.unit c slot
  let r := regionOf c
  let n := rd64 u 0x824 s + 1
  let s := wr64 u 0x824 (n % 2 ^ 48) s
  let cmap := sumN ((List.range 17).map (fun v => if clips.any (fun c => (if c < 128 then c / 8 else 16) == v) then 2 ^ v else 0))
  let s := wr u 0x82C (word (clips.length * 2 ^ 24 + cmap)) s
  let s := if clips.isEmpty then s else unitEvt c slot 2 s
  let s := if refF then unitEvt c slot 1 s else s
  let s := if grpF then unitEvt c slot 0 s else s
  let s := if 1 < tries ∧ !causeFails cause then unitEvt c slot 6 s else s
  let s := if cause = causeRepeat then countRgn r 0x14 1 (bump u 0x820 31 16 1 s) else s
  let s := if cause = causeChecksum then countRgn r 0x15 1 (bump u 0x820 15 0 1 s) else s
  let s := if cause = causeReference then countRgn r 0x16 1 (bump u 0x820 15 0 1 s) else s
  let s := countRgn r 0x10 1 (countRgn r 0x13 skips (countRgn r 0x12 bps (countRgn r 0x17 clips.length s)))
  -- the reads that the checksum storm of R646 counts
  if cause = causeRepeat ∨ cause = causeChecksum ∨ cause = causeReference then
    let x := rgnAt r s
    let recent := (now s :: x.storm).filter (fun t => now s ≤ t + 10 * usec)
    setRgn r { x with storm := recent } s
  else s

/-- What check read i of a plane gives, under the trims in force (R426). -/
def checkSub (c slot p i : Nat) (errs : List (Nat × ConvErr)) (s : State) : SubRes :=
  subRead ((unitAt c slot s).plane p) (readCfg c slot p 0 false (trimsOf c slot p s) s) (checkInput i)
    ((errs.filter (fun e => e.1 = i)).map (·.2)) 0 0

/-- One check read as a read that takes place (R426, R438): its trims at its start (R170), whether it gives PASS or REPEAT, and its records
and part in the tracking window (R107–R109, R174). -/
def checkRead (c slot p : Nat) (errs : List (Nat × ConvErr)) (i : Nat) (s : State) : Bool × State :=
  let s := startTrims c slot p s
  let r := checkSub c slot p i errs s
  let bps := (activeBps false (checkInput i)).length
  let s := readRecords c slot r.cause r.clips r.tries bps (8 - bps) (causeFails r.cause && !r.refs.isEmpty)
    (causeFails r.cause && !r.groups.isEmpty) s
  (decide (r.cause = causePass ∨ r.cause = causeRepeat), if causeFails r.cause then s else trackRead c slot p r s)

/-- The four check reads of a plane (R426, R438): whether they all pass, and the state that has made them. -/
def checkReads (c slot p : Nat) (errs : List (Nat × ConvErr)) (s : State) : Bool × State :=
  [1, 2, 3, 4].foldl (fun (a : Bool × State) i => let (ok, s) := checkRead c slot p errs i a.2; (a.1 && ok, s)) (true, s)

end Sys2Proof.Machine
end

