-- ==== Sys2Proof/Machine/Access.lean ====
section
/-! DEFINITION. Who may write what (R726, R727, R743), which pages are off (R361, R746), and the statuses of a
register access (R567, R581, R725). -/

namespace Sys2Proof.Machine

/-- Status codes of R581. -/
def stOK : Nat := 0x00
def stFAILED : Nat := 0x01
def stTAINTED : Nat := 0x02
def stNONFINITE : Nat := 0x03
def stRANGE : Nat := 0x04
def stABORTED : Nat := 0x05
def stSTACKLOST : Nat := 0x06
def stCLOSED : Nat := 0x07
def stDEADLINE : Nat := 0x08
def stCAPACITY : Nat := 0x09
def stOVERFLOW : Nat := 0x0A
def stENDED : Nat := 0x0B
def stSIDRANGE : Nat := 0x10
def stINUSE : Nat := 0x11
def stSLOT : Nat := 0x12
def stFORMAT : Nat := 0x13
def stMIRROR : Nat := 0x14
def stKVRANGE : Nat := 0x15
def stNOSTREAM : Nat := 0x16
def stBADSEQ : Nat := 0x17
def stBUSY : Nat := 0x18
def stOFF : Nat := 0x20
def stDENIED : Nat := 0x21
def stPROTECTED : Nat := 0x22
def stUNMAPPED : Nat := 0x23
def stFENCED : Nat := 0x24
def stBADMSG : Nat := 0x30

/-- Number of a requester's bank (R729). -/
def reqNo : Requester → Nat
  | .lantern => 0
  | .mgmt => 1
  | .dzit => 2

/-- Registers that management software may write (R726). -/
def mgmtMay (p : Page) (off : Nat) : Bool :=
  match p with
  | .die 1 => decide (off = 0x194 ∨ off = 0x198)
  | .die n =>
    match p.cls with
    | (0x0D, _) => true
    | (9, _) => true
    | (0x11, _) => decide ((0x140 ≤ off ∧ off ≤ 0x1C4) ∨ off = 0x200 ∨ off = 0x204 ∨ off = 0x30C)
    | (6, _) => decide (off = 0x180)
    | (0x0E, _) => decide (n = 0xF0 ∧ off = 0x104)
    | _ => false
  | _ => false

/-- Registers that a host driver may write over Dzit (R727). -/
def dzitMay (p : Page) (off : Nat) : Bool :=
  decide (p.cls.1 ≠ 5 ∧ p.cls.1 ≠ 6 ∧ off ≠ 0x30 ∧ ¬ (p.cls.1 = 0x0D ∧ off = 0x11C))

/-- Whether a requester's write of a register is accepted; PG_LOCK is written only by Lantern (R726, R727,
R743). -/
def mayWrite (q : Requester) (p : Page) (off : Nat) : Bool :=
  match q with
  | .lantern => true
  | .mgmt => mgmtMay p off && decide (off ≠ 0x30)
  | .dzit => dzitMay p off

/-- The region of a region or cluster page. -/
def Page.region? : Page → Option Nat
  | .die _ => none
  | .rgn r _ => some r
  | .clu c => some (regionOf c)
  | .unit c _ => some (regionOf c)

/-- Whether an access to a page returns OFF: the TRM, SNS, STV and cluster pages of a fenced region, every page of a region that is powered
off without a fence, and the page of a fenced cluster (R361, R736, R746). Under a trip the SNS page and those that a fence leaves stay
reachable (R654). -/
def pageOff (p : Page) (s : State) : Bool :=
  match p with
  | .die _ => false
  | .rgn r i =>
    let x := rgnAt r s
    if x.fenced then decide (i = 1 ∨ i = 2 ∨ i = 3) else if tripped s then decide (i = 1 ∨ i = 3) else x.off
  | .clu c | .unit c _ => let x := rgnAt (regionOf c) s; x.fenced || x.off || (cluAt c s).fenced || tripped s

/-- Whether a page is locked (R743). -/
def locked (p : Page) (s : State) : Bool := decide (SMap.get 0 s.locks p.errPage.base ≠ 0)

/-- Carry out a register command of a requester, unless it is denied or the page is off; then its status is
reported and nothing else happens (R361, R726, R727). -/
def guardWrite (q : Requester) (p : Page) (off : Nat) (f : State → State) (s : State) : State :=
  if !mayWrite q p off then say .status [reqNo q, stDENIED] s
  else if pageOff p s then say .status [reqNo q, stOFF] s
  else f s

/-- Answer a register read (R581). -/
def regAns (q : Requester) (v : Word) (s : State) : State := say .regValue [reqNo q, stOK, v.toNat] s

/-- Read a register for a requester: a page that is off answers OFF with 0 (R361). -/
def guardRead (q : Requester) (p : Page) (f : State → Word × State) (s : State) : State :=
  if pageOff p s then say .regValue [reqNo q, stOFF, 0] s
  else let (v, s) := f s; regAns q v s

/-- Where a requester's own copy of a banked register lies (R729). -/
def bankKey (q : Requester) (p : Page) (off : Nat) : Nat := p.base + off + 2 ^ 48 * reqNo q

/-- A requester's own copy of a banked register. -/
def rdQ (q : Requester) (p : Page) (off : Nat) (s : State) : Word := SMap.get (p.resetWord off) s.regs (bankKey q p off)

/-- Store a requester's own copy of a banked register. -/
def wrQ (q : Requester) (p : Page) (off : Nat) (v : Word) (s : State) : State :=
  { s with regs := SMap.set (p.resetWord off) s.regs (bankKey q p off) v }

/-- A consumer's page records the blocks whose headers were inconsistent on arrival (R122). -/
def noteHdr (p : Page) (bs : List Blk) (s : State) : State := if bs.any hdrBad then recordErr p errHDR s else s

/-- A parity event at a consumer with its page, counted at the cluster's router (R328, R680). -/
def parityEventAt (p : Page) (c : Nat) (s : State) : State :=
  countRgn (regionOf c) 0x44 1 (recordErr p errPARITY (bump (.clu c) 0x31C 31 24 1 s))

/-- A parity event of a cluster's own consumers. -/
def parityEvent (c : Nat) (s : State) : State := parityEventAt (.clu c) c s

/-- Blocks that arrive with a reserved cause: each counts as a parity event of the mesh (R79). -/
def reservedCauses (p : Page) (c : Nat) (bs : List Blk) (s : State) : State :=
  foldRange (bs.filter (fun b => decide (9 ≤ b.cause))).length (fun _ s => parityEventAt p c s) s

/-- Record, once for a write, that it met a locked field (R744). -/
def recIf (b : Bool) (p : Page) (e : Nat) (s : State) : State := if b then recordErr p e s else s

end Sys2Proof.Machine
end

