-- ==== Sys2Proof/Machine/Pantry.lean ====
section
/-! DEFINITION. The Pantry of a cluster (R226–R228): lines, the blocks that they hold, and reads with their word errors. -/

namespace Sys2Proof.Machine

/-- Whether a block takes a second line: a P24 or P16B block that is not a zero block (R226). -/
def twoLines (b : Blk) : Bool := !isZero b && (match b.fmt with
  | .p24 | .p16b => true
  | _ => false)

/-- Lines from one block to the next where blocks of a format are addressed (R226). -/
def linesOf (b : Blk) : Nat := match b.fmt with
  | .p24 | .p16b => 2
  | _ => 1

/-- The format of a run of blocks: that of its blocks that travel with a payload, A8 where none does (R123). -/
def runFmt (bs : List Blk) : BlkFmt := ((bs.find? (fun b => decide (b.fmt ≠ .zb))).map (·.fmt)).getD .a8

/-- Lines that a run of blocks takes: a zero block keeps the stride of its run (R226). -/
def runLines (bs : List Blk) : Nat := linesOf (zeroBlk (runFmt bs) false 0 0 0 0) * bs.length

/-- A Pantry line. -/
def lineAt (cl : Cluster) (l : Nat) : PLine := SMap.get PLine.clear cl.pantry l

/-- The 64 bytes of a line. -/
def PLine.bytes : PLine → List Byte
  | .blk b => slice (blkBytes b) 0 64
  | .tail b => slice (blkBytes b) 64 64

/-- The block whose tag, stream ID and cause a line keeps (R226). -/
def PLine.tag : PLine → Blk
  | .blk b => b
  | .tail b => b

/-- The block read at a line (R226): over both lines where it is a P24 or P16B block, whose second line may have been written since; the second
line of a block reads as an A8 block of its bytes. -/
def pantryLine (cl : Cluster) (l : Nat) : Blk :=
  match lineAt cl l with
  | .blk b =>
    let next := lineAt cl (l + 1)
    if !twoLines b ∨ next = .tail b then b
    else { blkFrom b.fmt ((PLine.blk b).bytes ++ next.bytes) with cause := b.cause, pt := b.pt, sid := b.sid, bslot := b.bslot }
  | .tail b => { blkFrom .a8 (PLine.tail b).bytes with cause := b.cause, pt := b.pt, sid := b.sid, bslot := b.bslot }

/-- Put content into one line; what it holds no longer comes from outside the pitch. -/
def putLine (l : Nat) (x : PLine) (cl : Cluster) : Cluster :=
  { cl with pantry := SMap.set PLine.clear cl.pantry (l % 512) x, alien := cl.alien.filter (· ≠ l % 512) }

/-- Write a block at a Pantry line: both lines of a P24 or P16B block, one of any other (R226). -/
def setLine (c l : Nat) (b : Blk) (s : State) : State :=
  updClu c (fun cl =>
    let cl := putLine l (.blk b) cl
    if twoLines b then putLine (l + 1) (.tail b) cl else cl) s

/-- Write blocks from a first Pantry line up, each taking the lines of its format. -/
def setEach (c : Nat) : Nat → List Blk → State → State
  | _, [], s => s
  | l, b :: bs, s => setEach c (l + linesOf b) bs (setLine c l b s)

/-- Write a run of blocks from a first Pantry line up: a zero block that came without a payload takes a place of the run's format, and leaves the
second line of that place as it was (R226). -/
def setLines (c l : Nat) (bs : List Blk) (s : State) : State :=
  setEach c l (bs.map (fun b => if b.fmt = .zb then { takeBlk b with fmt := runFmt bs } else b)) s

/-- n Pantry lines from a first line as bytes (R273). -/
def pantryBytes (cl : Cluster) (n l : Nat) : List Byte := (List.range n).flatMap (fun i => (lineAt cl (l + i)).bytes)

/-- Words corrected and uncorrectable among those of n lines from a first line: pairs of a line and whether the word is uncorrectable. -/
def wordsIn (ecc : List (Nat × Bool)) (l n : Nat) (bad : Bool) : Nat :=
  (ecc.filter (fun e => decide (l ≤ e.1 ∧ e.1 < l + n) && e.2 == bad)).length

/-- The word errors of a read of n lines for a step (R226, R228, R500): counts, the memory event of the cluster, the report and the error record. -/
def wordErrors (c l n step : Nat) (ecc : List (Nat × Bool)) (s : State) : State :=
  let corr := wordsIn ecc l n false
  let bad := wordsIn ecc l n true
  let s := if corr = 0 then s else countRgn (regionOf c) 0x31 corr (bump (.clu c) 0x28C 15 0 corr s)
  if bad = 0 then s
  else
    let s := countRgn (regionOf c) 0x32 bad (bump (.clu c) 0x28C 31 16 bad s)
    let s := fireRgn (regionOf c) 3 (recordErr (.clu c) errMEM s)
    let org := if l < rf (.clu c) 0x280 24 16 s then orgPantry else orgState
    let s := report c step org 0 0x7F s
    writeRec { kind := 0x0A, origin := org, cluster := c, pitch := pitchOfClu c s, step := step,
               detail := leBytes 1 0x30 ++ leBytes 1 (localOf c) } s

/-- Read the Pantry block at a line for a step, with the words corrected or uncorrectable on the way; a block with an uncorrectable word leaves
with a failed verdict (R226, R228). -/
def readOne (c l step : Nat) (ecc : List (Nat × Bool)) (s : State) : Blk × State :=
  let b := takeBlk (pantryLine (cluAt c s) l)
  let n := if twoLines b then 2 else 1
  let s := wordErrors c l n step ecc s
  if wordsIn ecc l n true = 0 then (b, s)
  else
    let (w, s) := freeCause s
    ({ b with cause := causeFirst [b.cause, w] }, s)

/-- Read the four Pantry blocks of an action, one line each (R212, R226). -/
def readLines (c line step : Nat) (ecc : List (Nat × Bool)) (s : State) : List Blk × State :=
  (List.range 4).foldl (fun (acc : List Blk × State) i =>
    let (b, s) := readOne c (line + i) step ecc acc.2
    (acc.1 ++ [b], s)) ([], s)

/-- Read n blocks of a residual run from a first line onward, two lines to a place: its blocks are P24 or P16B, and a zero block stands in the first
line of its place (R219, R220, R226). -/
def readRun : Nat → Nat → Nat → Nat → List (Nat × Bool) → State → List Blk × State
  | 0, _, _, _, _, s => ([], s)
  | n + 1, c, line, step, ecc, s =>
    let (b, s) := readOne c line step ecc s
    let (bs, s) := readRun n c (line + 2) step ecc s
    (b :: bs, s)

end Sys2Proof.Machine
end

