-- ==== Sys2Proof/Machine/Unit.lean ====
section
/-! DEFINITION. The unit commands (R43–R111): reads, programming, spares, fences, margin codes. -/

namespace Sys2Proof.Machine

-- Fields of a unit action entry (R212) -----------------------------------------------------------------

def uaKind (e : Nat) : Nat := fld e 1 0
def uaPlane (e : Nat) : Nat := fld e 3 2
def uaRange (e : Nat) : Nat := fld e 5 4
def uaInsrc (e : Nat) : Nat := fld e 7 6
def uaInline (e : Nat) : Nat := fld e 16 8
def uaDest (e : Nat) : Nat := fld e 19 17
def uaDaddr (e : Nat) : Nat := fld e 31 20
def uaDesc (e : Nat) : Nat := fld e 33 32

/-- The action entry of logical unit u in the cluster's current lane word (R212, R266). -/
def actionOf (cl : Cluster) (u : Nat) : Nat := SMap.get 0 cl.uat (fld cl.word (8 * u + 7) (8 * u))

/-- Blocks that an input half holds (R53). -/
def halfBlks : Nat := 4

/-- The node of the unit level that an output of a sender leaves: the slot of a logical unit, or the cluster router. -/
def senderNode (c who : Nat) (s : State) : Nat := if who < 64 then (physOf c who s).getD who else nodeCluster

/-- The nodes that an output passes within its cluster: over its slot's spur to the reduction unit, over the unit mesh to the cluster router, or to a
unit (R319–R321, R334); none for what the cluster's own machinery writes. -/
def outPath (c who dest daddr : Nat) (s : State) : List Nat :=
  let src := senderNode c who s
  match dest with
  | 1 => if src = nodeCluster then [] else [src, nodeReduce]
  | 2 | 4 => if src = nodeCluster then [] else unitPath src nodeCluster
  | 3 => match physOf c (daddr % 64) s with
    | none => []
    | some k => unitPath src k
  | _ => []

/-- The tag of an output as it crosses the unit mesh (R325, R326). -/
def outTag (c who dest daddr : Nat) (s : State) : Tag :=
  match dest with
  | 2 => tagTo c who c 0 (daddr % 512) 0 s
  | 3 => tagTo c who c 2 (daddr % 64) 0 s
  | _ =>
    let e := SMap.get 0 (cluAt c s).rte (daddr % 256)
    tagTo c who ((routeTargets e).headD 0) (fld e 4 2) (fld e 14 5) (if fld e 1 0 = 2 then 1 else 0) s

/-- An output's crossing of the unit mesh; a spur carries no tag. -/
def outCross (c who dest daddr : Nat) (blks : List Blk) (s : State) : State :=
  let l := outPath c who dest daddr s
  if dest = 1 ∨ l.length < 2 then s
  else crossUnits c (l.headD 0) (l.getLastD 0) (outTag c who dest daddr s) blks s

/-- Place a unit's or a cluster's output at its destination (R212, R218): discarded, to a reduction entry of the
cluster, to Pantry lines, to a unit of the cluster, where it waits while the unit's filling half has no room (R53, R214), or to a route entry. `who` is the sender within the cluster: a
logical unit, or 64 + a reduction entry. An output whose way within the cluster leads over a link that is down is refused LINKDOWN (R344, log 105). -/
def deliver (c who dest daddr step : Nat) (blks : List Blk) (s : State) : State :=
  if pathDown c (outPath c who dest daddr s) s then
    sendControl c anon c { tagTo c srcNone c 7 (max 1 blks.length) 2 s with fmt := 2 } s
  else match dest with
  | 1 => sayBlks .contribution [c, daddr % 32, 0] blks s
  | 2 => setLines c (daddr % 512) blks (outCross c who dest daddr blks s)
  | 3 =>
    match physOf c (daddr % 64) s with
    | none => s
    | some k =>
      if ((unitAt c k s).filling ++ blks).length ≤ halfBlks then
        updUnit c k (fun x => { x with filling := x.filling ++ blks }) (outCross c who dest daddr blks s)
      else updClu c (fun cl => { cl with stuck := cl.stuck ++ [{ who := who, unit := daddr % 64, blks := blks }] }) s
  | 4 => sendData c who (daddr % 256) step blks (outCross c who dest daddr blks s)
  | _ => s

/-- Whether a sender's output waits for room at a unit. -/
def isStuck (c who : Nat) (s : State) : Bool := (cluAt c s).stuck.any (fun x => x.who = who)

/-- An action of the current step has completed (R37), unless its output still waits for room at a unit (R53, R214). -/
def actionDone (c u : Nat) (s : State) : State :=
  if isStuck c u s then s else updClu c (fun cl => { cl with acts := cl.acts.filter (· ≠ u) }) s

/-- Outputs that wait for room at a unit are delivered once its filling half has been taken (R53, R214). -/
def unstick (c u : Nat) (s : State) : State :=
  match (cluAt c s).stuck.find? (fun x => x.unit = u) with
  | none => s
  | some x => actionDone c x.who (deliver c x.who 3 x.unit 0 x.blks (updClu c (fun cl => { cl with stuck := cl.stuck.erase x }) s))

/-- Give four output blocks the identity of the input blocks they came from, and a cause (R216). -/
def tagOut (half : List Blk) (cause : Nat) (blks : List Blk) : List Blk :=
  let h := nth (zeroBlk .a8 false 0 0 0 0) half 0
  blks.map (fun b => { b with cause := cause, pt := h.pt, sid := h.sid, bslot := h.bslot })

/-- The cause of an output: its own, with the failed causes of its inputs (R80, R507). -/
def outCause (own : Nat) (half : List Blk) : Nat :=
  causeFirst (own :: (half.filter (fun b => causeFails b.cause)).map (·.cause))

/-- The format of a descriptor's output (R140). -/
def descFmt (d : Desc) : BlkFmt := match d.owidth with
  | 1 => .a8
  | 2 => .a4
  | _ => .p24

/-- Four blocks of a format whose payload the spec does not state. -/
def freeOut (fmt : BlkFmt) (s : State) : List Blk × State :=
  (List.range 4).foldl (fun (a : List Blk × State) _ => let (b, s) := freeBlk fmt a.2; (a.1 ++ [b], s)) ([], s)

/-- Inputs of an action and the state that has taken them: Pantry lines, the unit's four arrived blocks, or the
half last read; none while they are incomplete (R53, R212, R214, R215). -/
def takeInputs (c slot : Nat) (e step : Nat) (ecc : List (Nat × Bool)) (s : State) : Option (List Blk × State) :=
  let x := unitAt c slot s
  match uaInsrc e with
  | 0 => some (readLines c (uaInline e) step ecc s)
  | 1 =>
    if x.filling.length < halfBlks then none
    else some ((x.filling.take halfBlks).map takeBlk, unstick c (x.serves.getD 64) (setUnit c slot { x with filling := x.filling.drop halfBlks } s))
  | _ => some (x.half, s)

/-- The illegal causes of a READ that show before its inputs have come (R46, R48, R215). -/
def formIllegal (e : Nat) (x : USlot) (joined : Bool) : Bool :=
  decide (uaPlane e = 3) || decide (uaInsrc e = 3) || (decide (uaInsrc e = 2) && !x.hasRead) || (decide (uaPlane e = 0) && joined)

/-- The illegal causes of a READ (R46–R48, R215). -/
def readIllegal (e : Nat) (x : USlot) (joined : Bool) (half : List Blk) : Bool :=
  formIllegal e x joined ||
    (decide (uaPlane e = 0) && half.any (fun b => b.pt ≠ (nth (zeroBlk .a8 false 0 0 0 0) half 0).pt))

/-- Four zero blocks of cause FENCED, of the format of a descriptor's output (R98, R226). -/
def fencedOut (d : Desc) : List Blk := List.replicate 4 (zeroBlk (descFmt d) false causeFenced 0 0 0)

/-- The input blocks of an action that completes before it takes them: the Pantry lines that it names, the blocks in the unit's filling half, or the
half last read (R212). DESIGN CHOICE (entry 86): where no block has come to the filling half yet, the zero blocks take the identity of the half
last read; R98 states none. -/
def fencedInputs (c slot e : Nat) (s : State) : List Blk :=
  let x := unitAt c slot s
  match uaInsrc e with
  | 0 => [pantryLine (cluAt c s) (uaInline e)]
  | 1 => if x.filling.isEmpty then x.half else x.filling
  | _ => x.half

/-- An action of a fenced logical unit with no spare in its place completes at once (R98). An ILLEGAL cause that applies too goes first (R58, R80);
blocks that have come for the action are dropped with it. -/
def fencedAction (c u : Nat) (e step : Nat) (s : State) : State :=
  let slot := (physOf c u s).getD u
  let x := unitAt c slot s
  let half := fencedInputs c slot e s
  let bad := decide (uaKind e = 1) && formIllegal e x (rb (.unit c slot) 0x80C 0 s)
  let cause := causeFirst (causeFenced :: (if bad then [causeIllegal] else []))
  let s := setUnit c slot { x with lastCause := if uaKind e = 1 then cause else x.lastCause,
                                   filling := if uaInsrc e = 1 then x.filling.drop halfBlks else x.filling } s
  let s := unitEvt c slot 7 (if bad then unitEvt c slot 3 s else s)
  let s := report c step orgIllegal cause 0x7F (if uaInsrc e = 1 then unstick c u s else s)
  let d := descFor c (uaDesc e) (wideFor c (uaDesc e) s) s
  actionDone c u (deliver c u (uaDest e) (uaDaddr e) step (tagOut half cause (fencedOut d)) s)

/-- The plane a READ names (R46). -/
def readPlane (e : Nat) (half : List Blk) : Nat :=
  match uaPlane e with
  | 0 => (nth (zeroBlk .a8 false 0 0 0 0) half 0).pt % 2
  | p => p - 1

/-- Complete a READ that takes no place, with a failing cause (R46–R50, R58). -/
def refuseRead (c u slot e step cause evt : Nat) (half : List Blk) (s : State) : State :=
  let s := updUnit c slot (fun x => { x with lastCause := cause, half := half, hasRead := true }) s
  let s := report c step orgIllegal cause 0x7F (unitEvt c slot evt s)
  let d := descFor c (uaDesc e) (wideFor c (uaDesc e) s) s
  let (bs, s) := freeOut (descFmt d) s
  actionDone c u (deliver c u (uaDest e) (uaDaddr e) step (tagOut half (outCause cause half) bs) s)

/-- The four output blocks of y values under a descriptor (R69 steps 4 and 5, R134, R142, R143). -/
def ringOut (c slot u p k : Nat) (d : Desc) (y8 : List Int) (ea sid step : Nat) (s : State) : List Blk :=
  let par := ((unitAt c slot s).plane p).par
  let plcfg := rd (.unit c slot) 0x80C s
  let fmtNo := if p = 0 then getF plcfg 6 4 else getF plcfg 10 8
  let fmt := rd (.clu c) (0x1C0 + 8 * fmtNo) s
  (List.range 4).map (fun g =>
    let b := scaleGroup par g ((y8.drop (32 * g)).take 32) k (getB fmt 19) (sx 3 (getF fmt 18 16)) ea
    postOp c d 1 (unitOrigin c u) sid step (32 * g) b s)

/-- Count the events of produced blocks to a descriptor's layer (R151). -/
def countOut (c : Nat) (d : Desc) (bs : List Blk) (s : State) : State :=
  bs.foldl (fun s b => countBlk c d.layer b s) s

/-- Rows and exponents of a read's sub-reads: one aligned read, or one per live block when split, with EA and the
alignment-loss events (R137–R139). -/
def subInputs (d : Desc) (half : List Blk) (sr : Nat → Option Nat) : List (List Int × Nat) × Nat × Nat :=
  if d.split then
    let live := (half.zipIdx).filter (fun (b, _) => !isZero b)
    let emax := live.foldl (fun a (b, _) => max a b.exp) 0
    let emin := live.foldl (fun a (b, _) => min a b.exp) 255
    let subs := live.map (fun (b, j) =>
      ((List.range 128).map (fun r => if r / 32 = j then manAt b (r % 32) else 0), b.exp))
    (subs, max emin (emax - 24), (live.filter (fun (b, _) => decide (b.exp < max emin (emax - 24)))).length)
  else
    let (rows, ea, loss) := alignRows half sr
    ([(rows, ea)], ea, loss)

/-- A null read: bias alone, cause NULL, and the alignment-loss events of its inputs (R58, R138). It takes its trims as every read does (R170). -/
def nullRead (c u slot e p step : Nat) (half : List Blk) (s : State) : State :=
  let d := descFor c (uaDesc e) (wideFor c (uaDesc e) s) s
  let h := nth (zeroBlk .a8 false 0 0 0 0) half 0
  let sr := fun i => if d.alnSr then some (draw16 0 (unitOrigin c u) h.sid step i) else none
  let s := startTrims c slot p s
  let bs := ringOut c slot u p (uaRange e) d (List.replicate 132 0) 0 h.sid step s
  let s := updUnit c slot (fun x => { x with half := half, hasRead := true }) s
  let s := countPrec c d.layer 3 (subInputs d half sr).2.2 (countRgn (regionOf c) 0x11 1 (countOut c d bs s))
  actionDone c u (deliver c u (uaDest e) (uaDaddr e) step (tagOut half (outCause causeNull half) bs) s)

/-- Predicted draw of a read in 0.1 µA: IC and IROW for the most rows driven in a bit-plane (R611). -/
def readCharge (a4 : Bool) (subs : List (List Int × Nat)) (s : State) : Nat :=
  let w := rd pgPwr 0x160 s
  let n := subs.foldl (fun a (x, _) => (activeBps a4 x).foldl (fun a b => max a (drivenRows x b).length) a) 0
  10 * getF w 27 16 + getF w 7 0 * n

/-- Start a non-null read: trims, charge, and the read in progress (R53, R611, R613). -/
def startRead (c slot e p step : Nat) (half : List Blk) (s : State) : State :=
  let wide := wideFor c (uaDesc e) s
  let d := descFor c (uaDesc e) wide s
  let h := nth (zeroBlk .a8 false 0 0 0 0) half 0
  let origin := unitOrigin c (((unitAt c slot s).serves).getD 0)
  let (subs, _, _) := subInputs d half (fun i => if d.alnSr then some (draw16 0 origin h.sid step i) else none)
  let q := readCharge (readA4 half) subs s
  let s := startTrims c slot p s
  let x := unitAt c slot s
  let need := q - x.holding
  let op : ReadOp := { plane := p, range := uaRange e, dest := uaDest e, daddr := uaDaddr e, pair := uaDesc e, wide := wide,
                       half := half, step := step, need := need, trims := trimsOf c slot p s }
  let s := setUnit c slot { x with half := half, hasRead := true, cur := some op, holding := min x.holding q } s
  let s := release (regionOf c) (x.holding - q) s
  if need = 0 then s else askDamper (regionOf c) (.unit (ukey c slot)) need s

/-- Whether every aligned input of a read is zero (R58). -/
def allZero (d : Desc) (half : List Blk) (sr : Nat → Option Nat) : Bool :=
  (subInputs d half sr).1.all (fun (x, _) => x.all (· == 0))

/-- UNIT_READ (R53): logical unit u of a cluster begins its action of the current step once its inputs are
complete. A FORWARD passes its blocks on; a READ is refused (R46–R50), null (R58) or started. -/
def execUnitRead (c u : Nat) (ecc : List (Nat × Bool)) (s : State) : Host.Outcome State Fault Refusal :=
  let cl := cluAt c s
  match physOf c u s with
  | none => .next s
  | some slot =>
    let x := unitAt c slot s
    if !cl.acts.contains u || x.cur.isSome || x.fenced || isStuck c u s then .next s
    else
      let e := actionOf cl u
      let step := cl.next - 1
      match takeInputs c slot e step ecc s with
      | none => .next s
      | some (half, s1) =>
        if uaKind e = 2 then .next (actionDone c u (deliver c u (uaDest e) (uaDaddr e) step half s1))
        else
          let joined := rb (.unit c slot) 0x80C 0 s
          if readIllegal e x joined half then .next (refuseRead c u slot e step causeIllegal 3 half s1)
          else
            let p := readPlane e half
            if (x.plane p).st ≠ .resident then .next (refuseRead c u slot e step causePlane 4 half s1)
            else
              let d := descFor c (uaDesc e) (wideFor c (uaDesc e) s) s
              let h := nth (zeroBlk .a8 false 0 0 0 0) half 0
              let sr := fun i => if d.alnSr then some (draw16 0 (unitOrigin c u) h.sid step i) else none
              if allZero d half sr then .next (nullRead c u slot e p step half s1)
              else .next (startRead c slot e p step half s1)

/-- The y values of a read's sub-reads combined at EA, in 1/8 LSB; a sub-read below EA is rounded at EA (R139). -/
def combineY (rs : List (SubRes × Nat)) (ea : Nat) (sr : Nat → Option Nat) : List Int :=
  (List.range 132).map (fun c => sumI (rs.map (fun (r, e) =>
    let y := nth 0 r.y8 c
    if ea ≤ e then y * (2 ^ (e - ea) : Nat) else 8 * shiftBy (sr c) y ((e : Int) - ea - 3))))

/-- Sub-reads of a read in progress, for run 0, or run 1 of a lockstep pair (R76, R139, R520). -/
def runRead (c slot : Nat) (op : ReadOp) (errs : List ConvErr) (run : Nat) (subs : List (List Int × Nat)) (s : State) :
    List (SubRes × Nat) :=
  let pl := (unitAt c slot s).plane op.plane
  let cfg := readCfg c slot op.plane op.range (readA4 op.half) op.trims s
  (subs.zipIdx.filter (fun ((x, _), _) => x.any (· != 0))).map (fun ((x, e), i) => (subRead pl cfg x errs (4 * run) i, e))

/-- Complete the read in progress of a slot that serves logical unit u. -/
def finishRead (c u slot : Nat) (op : ReadOp) (errs : List ConvErr) (up2 : List Nat) (s : State) : State :=
  let d := descFor c op.pair op.wide s
  let h := nth (zeroBlk .a8 false 0 0 0 0) op.half 0
  let sr := fun i => if d.alnSr then some (draw16 0 (unitOrigin c u) h.sid op.step i) else none
  let (subs, ea, loss) := subInputs d op.half sr
  let rs := runRead c slot op errs 0 subs s
  let y8 := combineY rs ea sr
  let lock := bit (rf pgDie 0x200 15 0 s) (pitchOfClu c s)
  let mism := lock && (!up2.isEmpty ||
    (let y2 := combineY (runRead c slot op errs 1 subs s) ea sr
     (y8.zip y2).any (fun (a, b) => decide (2 * rf pgDie 0x204 15 0 s < (a - b).natAbs))))
  let own := causeFirst (rs.map (fun (r, _) => r.cause))
  let cause := if mism then causeFirst [own, causeChecksum] else own
  let clips := rs.foldl (fun a (r, _) => a ++ r.clips.filter (fun c => !a.contains c)) []
  let refF := rs.any (fun (r, _) => decide (r.cause = causeReference ∨ (causeFails r.cause ∧ r.refs ≠ [])))
  let grpF := rs.any (fun (r, _) => causeFails r.cause && !r.groups.isEmpty)
  let tries := rs.foldl (fun a (r, _) => max a r.tries) 0
  let bps := sumN (subs.map (fun (x, _) => (activeBps (readA4 op.half) x).length))
  let skips := (if readA4 op.half then 4 else 8) * subs.length - bps
  let outs := ringOut c slot u op.plane op.range d y8 ea h.sid op.step s
  let s := updUnit c slot (fun x => { x with cur := none, lastCause := cause }) s
  let s := readRecords c slot cause clips tries bps skips refF grpF s
  let s := countPrec c d.layer 2 clips.length (countPrec c d.layer 3 loss (countOut c d outs s))
  let s := if !d.split && !causeFails cause then rs.foldl (fun s (r, _) => trackRead c slot op.plane r s) s else s
  let tol := rf (.unit c slot) (0x810 + 4 * op.plane) 15 0 s
  let org := if mism then orgLockstep else orgUnit
  let s := ladder c slot op.step org cause (causeFails cause) (rs.flatMap (fun (r, _) => r.groups)) (rs.flatMap (fun (r, _) => r.refs)) tol s
  let s := if mism then writeRec { kind := 0x0C, origin := org, cause := cause, cluster := c, pslot := slot, step := op.step,
                                     pitch := pitchOfClu c s } s else s
  let s := if causeFails cause then report c op.step org cause slot s else s
  let s := giveBack c slot s
  let oc := outCause cause op.half
  actionDone c u (deliver c u op.dest op.daddr op.step (tagOut op.half oc outs) s)

/-- READ_COMPLETE (R69): the last conversion of the read in progress completes; the ring forms its output and
verdict. `up2` lists the bits in which a second digital computation differs, in lockstep (R522). -/
def execReadComplete (c u : Nat) (errs : List ConvErr) (up2 : List Nat) (s : State) : Host.Outcome State Fault Refusal :=
  match physOf c u s with
  | none => .next s
  | some slot =>
    match (unitAt c slot s).cur with
    | none => .next s
    | some op => if op.need = 0 then .next (finishRead c u slot op errs up2 s) else .next s

-- Programming (R82–R87) ----------------------------------------------------------------------------------

/-- Key of a unit-plane in the Logbook's records. -/
def upKey (c u p : Nat) : Nat := (c * 64 + u) * 2 + p

/-- The residency record of a unit-plane (R432). -/
def recOf (key : Nat) (s : State) : Option Nat :=
  (s.resrecs.find? (fun e => e.2.members.contains key)).map (·.1)

/-- Change a residency record. -/
def updRes (n : Nat) (f : ResRec → ResRec) (s : State) : State :=
  { s with resrecs := SMap.upd ResRec.free s.resrecs n f }

/-- Whether the running load has claimed a unit-plane (R424). -/
def claimed (key : Nat) (s : State) : Bool := s.ld.claims.contains key

/-- A unit-plane leaves its record when a programming of it for a load starts; a record that loses its last is FREE (R432). -/
def leaveRecord (key : Nat) (s : State) : State :=
  match recOf key s with
  | none => s
  | some n =>
    let l := (SMap.get ResRec.free s.resrecs n).members.filter (· ≠ key)
    updRes n (fun r => if l.isEmpty then ResRec.free else { r with members := l, st := 2 }) s

/-- Most units of a region that program at once (R85). -/
def pgmSlots : Nat := 2176

/-- Slots that must be free before a refresh takes one (R187). -/
def refreshFree : Nat := 1088

/-- Whether programming is held by PGMHOLD for a cluster's pitch (R281). -/
def pgmHeld (c : Nat) (s : State) : Bool :=
  match slotOfClu c s with
  | none => false
  | some n => (slotAt n s).pgmStop

/-- Whether a unit may program a plane now (R84, R97, R281, R424): no fence, no hold of programming, and the plane released, at the grant too. -/
def mayProgram (q : PgmReq) (s : State) : Bool :=
  !(unitAt (q.unit / 128) (q.unit % 128) s).fenced && !pgmHeld (q.unit / 128) s && !planeHeld (q.unit / 128) (q.unit % 128) q.plane s

/-- Whether a queued request may be granted now (R84, R85, R97, R187): a free slot, for a refresh 1,088 of them; a unit
programs one plane at a time. -/
def mayGrant (r : Nat) (q : PgmReq) (s : State) : Bool :=
  let x := rgnAt r s
  decide (x.active.length < pgmSlots) && !(x.active.any (fun a => a.unit = q.unit)) &&
    (match q.kind with
     | .refresh => decide (x.active.length + refreshFree ≤ pgmSlots)
     | _ => true) && mayProgram q s

/-- The refresh that alone keeps a load's or a spare's request from a grant, and that has not been told to give way: that of the unit's other
plane, or, where no slot of the region is free, the first that holds one (R187). -/
def inTheWay (r : Nat) (q : PgmReq) (s : State) : Option PgmReq :=
  let x := rgnAt r s
  let idle (a : PgmReq) : Bool := decide (a.kind = .refresh) && !((unitAt (a.unit / 128) (a.unit % 128) s).plane a.plane).yields
  if q.kind = .refresh ∨ !mayProgram q s then none
  else match x.active.find? (fun a => a.unit = q.unit) with
    | some a => if idle a then some a else none
    | none => if x.active.length < pgmSlots then none else x.active.find? idle

/-- The verify targets of a plane's levels in 0.001 G_U (R44, R115, R168): (L + 1), the offset of its format table and its retarget. -/
def verifyTargets (c k p : Nat) (s : State) : List Int :=
  let fmt := getF (rd (.unit c k) 0x80C s) (if p = 0 then 6 else 10) (if p = 0 then 4 else 8)
  (List.range 4).map (fun l =>
    1000 * (l + 1 : Nat) + sx 6 (rf (.clu c) (0x1C4 + 8 * fmt) (8 * l + 5) (8 * l) s) + sx 6 (rf (.unit c k) (0xB48 + 4 * p) (8 * l + 5) (8 * l) s))

/-- Whether a plane's row is in progress: it has had a pulse that did not verify (R82). -/
def rowOpen (y : Plane) : Bool := decide (0 < y.pulses)

/-- Leave the region's programming slot of a unit-plane (R85); UNIT_PGM no longer shows it as busy (R110). -/
def leaveSlot (c slot p : Nat) (s : State) : State :=
  let s := if rf (.unit c slot) 0x830 1 1 s = p % 2 then wf (.unit c slot) 0x830 0 0 0 s else s
  updRgn (regionOf c) (fun x => { x with active := x.active.filter (fun a => ¬ (a.unit = ukey c slot ∧ a.plane = p)),
                                         queue := x.queue.filter (fun a => ¬ (a.unit = ukey c slot ∧ a.plane = p)) }) s

/-- A refresh gives its slot up between two rows, and asks for one again behind the requests that wait (R187). DESIGN CHOICE (entry 94): its
plane stays PROGRAMMING meanwhile and goes on at its next row; the spec states only the longest delay. -/
def pauseRefresh (c k p : Nat) (s : State) : State :=
  let row := rf (.unit c k) 0x830 8 2 s
  let s := updPlane c k p (fun y => { y with paused := some row, yields := false }) (leaveSlot c k p s)
  updRgn (regionOf c) (fun x => { x with queue := x.queue ++ [{ unit := ukey c k, plane := p, kind := .refresh }] }) s

/-- Grant a slot to a request: the plane enters PROGRAMMING at row 0; the wear count rises; the Logbook records the start (R52, R86, R87,
R110). A refresh that had given its slot up goes on at its row. -/
def grantSlot (r : Nat) (q : PgmReq) (s : State) : State :=
  let c := q.unit / 128
  let k := q.unit % 128
  let u := Page.unit c k
  let s := updRgn r (fun x => { x with queue := x.queue.erase q, active := x.active ++ [q] }) s
  match ((unitAt c k s).plane q.plane).paused with
  | some row =>
    wf u 0x830 9 0 (row * 4 + q.plane * 2 + 1) (updPlane c k q.plane (fun y => { y with paused := none, pulses := 0 }) s)
  | none =>
    let s := updPlane c k q.plane (fun y => { y with st := .programming, kind := q.kind, pulses := 0, yields := false, started := true,
                                                     targets := verifyTargets c k q.plane s }) s
    let s := bump u (0x834 + 4 * q.plane) 31 0 1 s
    let s := wf u 0x830 9 0 (q.plane * 2 + 1) s
    let s := match q.kind, (unitAt c k s).serves with
      | .load, some l => leaveRecord (upKey c l q.plane) s
      | _, _ => s
    say .record [0, 0x86, q.unit, q.plane] (logWritten s)

/-- PROGRAM_GRANT (R85, R187): the region controller grants the oldest request that may run. A refresh that alone stands in the way of it gives
way first: at once between two rows, otherwise when its row ends. -/
def execProgramGrant (r : Nat) (s : State) : Host.Outcome State Fault Refusal :=
  let x := rgnAt r s
  if x.fenced || x.off then .next s
  else match x.queue.find? (fun q => mayGrant r q s || (inTheWay r q s).isSome) with
  | none => .next s
  | some q =>
    match inTheWay r q s with
    | none => .next (grantSlot r q s)
    | some a =>
      if rowOpen ((unitAt (a.unit / 128) (a.unit % 128) s).plane a.plane) then
        .next (updPlane (a.unit / 128) (a.unit % 128) a.plane (fun y => { y with yields := true }) s)
      else .next (grantSlot r q (pauseRefresh (a.unit / 128) (a.unit % 128) a.plane s))

/-- The row being programmed in a slot (R110). -/
def pgmRow (c slot : Nat) (s : State) : Nat := rf (.unit c slot) 0x830 8 2 s

/-- A plane becomes FAULTED while programming: UNIT_PGM.FAIL, PGMFAIL (R83, R110). -/
def programFail (c slot p : Nat) (s : State) : State :=
  let s := updPlane c slot p (fun y => { y with st := .faulted, yields := false }) s
  unitEvt c slot 5 (wf (.unit c slot) 0x830 9 9 1 (leaveSlot c slot p s))

/-- The state code of a spare (R93). -/
def spareSt (c n : Nat) (s : State) : Nat := rf (.clu c) (0x180 + 4 * n) 18 16 s

/-- Put a spare into a state (R93). -/
def setSpareSt (c n v : Nat) (s : State) : State := wf (.clu c) (0x180 + 4 * n) 18 16 v s

/-- The plane that a slot is programming, if any (R84, R110): one that holds its region's programming slot. -/
def pgmPlane (c slot : Nat) (s : State) : Option Nat :=
  let x := unitAt c slot s
  let on (y : Plane) : Bool := decide (y.st = .programming) && y.paused.isNone
  if on x.p0 then some 0 else if on x.p1 then some 1 else none

/-- q_r of a group: the level nearest to S_r / 32, the lower on a tie (R74). -/
def nearestLevel (sum : Nat) : Nat := min 3 ((sum + 15) / 32)

/-- Sum of the levels of a row's data cells in a group (R74). -/
def groupSum (levels : List Nat) (g : Nat) : Nat := sumN ((levels.drop (32 * g)).take 32)

/-- A row with its checksum levels, reference levels and residues, from the levels of its data cells (R43, R74). -/
def rowOfData (data : List Nat) : Row :=
  let sums := (List.range 4).map (groupSum data)
  let qs := sums.map nearestLevel
  { levels := data ++ qs ++ [0, 1, 2, 3], res := (sums.zip qs).map (fun (a, q) => (a : Int) - 32 * (q : Int)) }

/-- The residue test of a row read out: S_r − 32 × q_r = e_r in all four groups (R96). -/
def residueOk (levels : List Nat) (res : List Int) : Bool :=
  (List.range 4).all (fun g =>
    decide ((groupSum levels g : Int) - 32 * (nth 0 levels (128 + g) : Nat) = nth 0 res g))

/-- Whether a slot may have a pulse: none under a fence of the unit; a row in progress goes on; a new one begins only outside a fence of its
region and while programming is open (R97, R281, R525). -/
def pulseMay (c slot : Nat) (y : Plane) (s : State) : Bool :=
  !(unitAt c slot s).fenced && (rowOpen y || (!(rgnAt (regionOf c) s).fenced && !pgmHeld c s))

/-- A row of a tile record or of a plane read out: levels read with some columns misread (R96). -/
def readOut (levels : List Nat) (misread : List (Nat × Nat)) : List Nat :=
  (List.range 136).map (fun i => match misread.find? (fun m => m.1 = i) with
    | none => nth 0 levels i
    | some m => m.2 % 4)

/-- A row of 64 bytes of a tile record (R422). -/
def rowFrom (b : List Byte) : Row :=
  { levels := (List.range 136).map (fun c => leAt b (c / 4) 1 / 4 ^ (c % 4) % 4), res := (List.range 4).map (fun g => sx 8 (leAt b (34 + g) 1)) }

/-- Whether a row's residues and reference levels hold (R423), with residues of the range that the residue store keeps (R74). -/
def rowHolds (r : Row) : Bool :=
  residueOk r.levels r.res && decide (r.levels.drop 132 = [0, 1, 2, 3]) && r.res.all (fun e => decide (-16 ≤ e ∧ e ≤ 16))

/-- A row that the manifest's sources supply (R96, R186, R422): its 64 bytes, where they hold as R423 asks. -/
def fetchedRow (b : Option (List Byte)) : Option Row := (b.map rowFrom).filter rowHolds

/-- A refresh tests its row before the row's first pulse (R186): the row as it is read out, the row fetched in its place, or none. -/
def refreshRow (old : Row) (misread : List (Nat × Nat)) (fetched : Option (List Byte)) : Option Row :=
  let lv := readOut old.levels misread
  if residueOk lv old.res then some { old with levels := lv } else fetchedRow fetched

/-- The refresh of a plane is over, committed or not: a command that asked for it is complete (R209, R210). -/
def refreshOver (c slot p : Nat) (s : State) : State :=
  updRgn (regionOf c) (fun x => { x with cmds := x.cmds.filter (fun k =>
    ¬ (k.op = 4 ∧ k.begun ∧ k.cluster = localOf c ∧ k.slot = slot ∧ k.plane = p)) }) s

/-- A plane whose programming ends with a row is BLANK (R188, R429). -/
def endAtRow (c slot p : Nat) (s : State) : State :=
  updPlane c slot p (fun y => { y with st := .blank, yields := false, pulses := 0 }) (refreshOver c slot p (leaveSlot c slot p s))

/-- A unit-plane in whose row a refresh or a failed load has ended gives way (R187, R188, R429): a plane that the loader has claimed passes to it,
BLANK, and programs the rows held for it; one of a failed load is BLANK; any other gives up its slot. -/
def giveWay (c slot p : Nat) (s : State) : State :=
  let y := (unitAt c slot s).plane p
  let taken := match (unitAt c slot s).serves with
    | none => false
    | some l => claimed (upKey c l p) s
  if !taken then
    if y.kind = .load then updPlane c slot p (fun y => { y with goal := [] }) (endAtRow c slot p s) else pauseRefresh c slot p s
  else
    let s := endAtRow c slot p s
    if y.goal.isEmpty then s
    else updRgn (regionOf c) (fun x => { x with queue := x.queue ++ [{ unit := ukey c slot, plane := p, kind := .load }] }) s

/-- One pulse with its verify (R82, R83). A row is programmed once it is held (R425); `fault` handles a unit-plane of a load that became
FAULTED. A refresh first tests the row, read with the columns `misread`, against its stored residues; a row that fails is taken as `fetched` from
the manifest's sources, and with none of them the plane becomes FAULTED (R186). -/
def pulse (fault : Nat → Nat → Nat → State → State) (c slot : Nat) (verified : Bool) (misread : List (Nat × Nat)) (fetched : Option (List Byte))
    (s : State) : State :=
  match pgmPlane c slot s with
  | none => s
  | some p =>
    let y := (unitAt c slot s).plane p
    let row := pgmRow c slot s
    let u := Page.unit c slot
    let again := decide (y.kind = .refresh)
    if !pulseMay c slot y s ∨ (!again ∧ !(y.goal.any (fun e => e.1 = row))) then s
    else
    let old := SMap.get Row.empty y.rows row
    match (if again && !rowOpen y then refreshRow old misread fetched else some (SMap.get Row.empty (if again then y.rows else y.goal) row)) with
    | none => refreshOver c slot p (programFail c slot p (say .xfer [0x96, c, slot, p, row] s))
    | some data =>
      let s := if again && !rowOpen y && !residueOk (readOut old.levels misread) old.res then say .xfer [0x96, c, slot, p, row] s else s
      let s := if again then updPlane c slot p (fun y => { y with rows := SMap.set Row.empty y.rows row data }) s else s
      let s := countRgn (regionOf c) 0x1A 1 s
      if verified then
        let s := updPlane c slot p (fun y => { y with rows := SMap.set Row.empty y.rows row data, pulses := 0 }) s
        if y.yields ∧ y.kind = .load then giveWay c slot p s
        else if row = 127 then
          let s := updPlane c slot p (fun y => { y with st := .checking, yields := false }) s
          let s := if y.kind = .load then bump pgSfs 0x120 31 0 1 s else s
          leaveSlot c slot p s
        else
          let s := wf u 0x830 8 2 (row + 1) s
          if y.yields then giveWay c slot p s else s
      else if rf u 0x830 20 16 s ≤ y.pulses + 1 then
        let s := programFail c slot p s
        match y.kind with
        | .load => if y.yields then giveWay c slot p s else fault c slot p s
        | .spare => s
        | .refresh => refreshOver c slot p s
      else updPlane c slot p (fun y => { y with pulses := y.pulses + 1 }) s

-- Spares (R92–R96) ----------------------------------------------------------------------------------------

/-- Whether a slot has nothing in progress that a fence or a substitution must wait for (R38): a read, and in a cluster without an image a
row being programmed. -/
def slotQuiet (c slot : Nat) (s : State) : Bool :=
  (unitAt c slot s).cur.isNone && !(cluIdle c s && (match pgmPlane c slot s with
    | none => false
    | some p => rowOpen ((unitAt c slot s).plane p)))

/-- A spare goes out of service, or gives up a load: it holds no weights, its planes are BLANK, and its requests go (R92, R95 orders 6 to 8). -/
def dropWeights (c n : Nat) (s : State) : State :=
  let k := 64 + n
  let s := leaveSlot c k 0 (leaveSlot c k 1 s)
  let f (y : Plane) : Plane := { y with st := .blank, rows := [], goal := [], pulses := 0, paused := none, yields := false }
  updUnit c k (fun x => { x with p0 := f x.p0, p1 := f x.p1 }) s

/-- A spare that was being loaded fails (R95 orders 2 and 9): its requests go; a plane that did not become FAULTED is BLANK. -/
def failSpare (c n : Nat) (s : State) : State :=
  let k := 64 + n
  let s := leaveSlot c k 0 (leaveSlot c k 1 s)
  let f (y : Plane) : Plane := { y with st := if y.st = .faulted then .faulted else .blank, goal := [], pulses := 0 }
  setSpareSt c n 5 (updUnit c k (fun x => { x with p0 := f x.p0, p1 := f x.p1 }) s)

/-- A slot leaves the under-test role: a margin code below its floor becomes the floor (R90). -/
def leaveTest (c slot : Nat) (s : State) : State :=
  let m := rd (.unit c slot) 0x818 s
  let s := updUnit c slot (fun x => { x with underTest := false }) s
  if getF m 2 0 < getF m 6 4 then wf (.unit c slot) 0x818 2 0 (getF m 6 4) s else s

/-- A slot that leaves a fence or the under-test role is due COL, and REF of both planes, before any other unit of its cluster (R180). -/
def recalibrate (c slot : Nat) (s : State) : State :=
  if (unitAt c slot s).fenced then s
  else updClu c (fun cl => { cl with recal := (slot, [0, 1, 2]) :: cl.recal.filter (fun e => e.1 ≠ slot) }) s

/-- The original slot of a logical unit, by number (R9). -/
def originalOf (c l : Nat) (s : State) : Nat := ((physOf c l s).filter (· < 64)).getD l

/-- At the boundary, a READY spare takes the logical index, and the original slot is fenced or enters the under-test
role (R95 orders 4 and 5). A stand-in for a slot under a fence is its substitute at once (order 10). -/
def spareTakes (c n : Nat) (s : State) : State :=
  let w := rd (.clu c) (0x180 + 4 * n) s
  let l := getF w 5 0
  match physOf c l s with
  | none => s
  | some o =>
    let x := unitAt c o s
    let order := getF w 10 8 == 1
    let sub := order || x.fenced
    let s := updUnit c (64 + n) (fun y => { y with serves := some l, filling := x.filling, half := x.half, hasRead := x.hasRead }) s
    let s := setUnit c o { x with serves := none, filling := [], fenced := sub, underTest := !sub } s
    let s := if order then wb (.unit c o) 0x804 0 true s else s
    let s := if sub then giveBack c o s else s
    let s := if sub then wf (.clu c) (0x180 + 4 * n) 10 8 1 s else s
    setSpareSt c n (if sub then 3 else 4) (if sub then logWritten s else s)

/-- At the boundary, a substituting or standing-in spare with MODE IDLE gives the logical index back, and holds no weights any more (R92, R95
orders 6 and 8). -/
def spareReturns (c n : Nat) (s : State) : State :=
  let l := rf (.clu c) (0x180 + 4 * n) 5 0 s
  let y := unitAt c (64 + n) s
  let o := unitAt c l s
  let s := setUnit c l { o with serves := some l, filling := y.filling, half := y.half, hasRead := y.hasRead } s
  let s := if o.underTest then leaveTest c l s else s
  let s := giveBack c (64 + n) (updUnit c (64 + n) (fun y => { y with serves := none, filling := [] }) s)
  let s := updClu c (fun cl => { cl with refr := cl.refr.filter (· ≠ n) }) (dropWeights c n s)
  setSpareSt c n 0 (logWritten (if o.underTest then recalibrate c l s else s))

/-- What a spare does at its logical unit's step boundary (R95). -/
def spareBoundary (c n : Nat) (s : State) : State :=
  let w := rd (.clu c) (0x180 + 4 * n) s
  if !atBoundary c s || !slotQuiet c (64 + n) s || !slotQuiet c (getF w 5 0) s then s
  else match getF w 18 16 with
    | 2 => if getF w 10 8 = 0 then s else spareTakes c n s
    | 3 | 4 => if getF w 10 8 = 0 then spareReturns c n s else s
    | _ => s

/-- Where no image runs in the cluster, the change takes effect at once (R38). -/
def spareNow (c n : Nat) (s : State) : State := if cluIdle c s then spareBoundary c n s else s

/-- Planes that a spare loads for a logical unit (R93). -/
def sparePlanes (c l planes : Nat) (s : State) : List Nat :=
  match planes with
  | 1 => [0]
  | 2 => [1]
  | 3 => [0, 1]
  | _ => (List.range 2).filter (fun p => match physOf c l s with
      | none => false
      | some o => decide (((unitAt c o s).plane p).st = .resident))

/-- A write of CLU_SPAREn (R93–R95). DESIGN CHOICE (entry 85): R94's list leaves MODE, LOGICAL and PLANES unchanged where LOGICAL or PLANES would
change while STATE is not IDLE, and its last sentence accepts MODE IDLE in every STATE; a write of MODE IDLE that also changes one of them is
refused whole. -/
def spareWrite (c n logical mode planes : Nat) (s : State) : State :=
  let p := Page.clu c
  let off := 0x180 + 4 * n
  let w := rd p off s
  let st := getF w 18 16
  if 2 < mode then
    -- MODE stays; LOGICAL and PLANES follow R94
    let s := recordErr p errFIELD s
    if st = 0 then wf p off 13 12 planes (wf p off 5 0 logical s) else s
  else if mode = 0 then
    let changes := st ≠ 0 ∧ (logical ≠ getF w 5 0 ∨ planes ≠ getF w 13 12)
    if changes then recordErr p errFIELD s
    else
      let s := wf p off 10 8 0 (wf p off 13 12 planes (wf p off 5 0 logical s))
      match st with
      | 1 | 2 => setSpareSt c n 0 (updClu c (fun cl => { cl with refr := cl.refr.filter (· ≠ n) }) (dropWeights c n s))
      | 5 => setSpareSt c n 0 s
      | 3 | 4 => spareNow c n s
      | _ => s
  else if st ≠ 0 then recordErr p errFIELD s
  else if (List.range 4).any (fun m => decide (m ≠ n ∧ rf p (0x180 + 4 * m) 10 8 s ≠ 0 ∧ rf p (0x180 + 4 * m) 5 0 s = logical)) then
    recordErr p errFIELD (wf p off 13 12 planes s)
  else
    let s := wf p off 18 16 1 (wf p off 13 12 planes (wf p off 10 8 mode (wf p off 5 0 logical s)))
    (sparePlanes c logical planes s).foldl (fun s pl =>
      updRgn (regionOf c) (fun x => { x with queue := x.queue ++ [{ unit := ukey c (64 + n), plane := pl, kind := .spare }] }) s) s

/-- SPARE_SUBSTITUTE (R95): a write of LOGICAL and PLANES with MODE SUBSTITUTE. -/
def execSpareSubstitute (q : Requester) (c n logical planes : Nat) (s : State) : Host.Outcome State Fault Refusal :=
  .next (guardWrite q (.clu c) (0x180 + 4 * n) (spareWrite c n logical 1 planes) s)

/-- SPARE_STAND_IN (R95): a write of LOGICAL and PLANES with MODE STAND-IN. -/
def execSpareStandIn (q : Requester) (c n logical planes : Nat) (s : State) : Host.Outcome State Fault Refusal :=
  .next (guardWrite q (.clu c) (0x180 + 4 * n) (spareWrite c n logical 2 planes) s)

/-- SPARE_IDLE (R95): a write of MODE IDLE that leaves LOGICAL and PLANES as they are. -/
def execSpareIdle (q : Requester) (c n : Nat) (s : State) : Host.Outcome State Fault Refusal :=
  let w := rd (.clu c) (0x180 + 4 * n) s
  .next (guardWrite q (.clu c) (0x180 + 4 * n) (spareWrite c n (getF w 5 0) 0 (getF w 13 12)) s)

/-- SPARE_TAKEOVER (R95 orders 4 to 8): the logical unit is at its step boundary. -/
def execSpareTakeover (c n : Nat) (s : State) : Host.Outcome State Fault Refusal := .next (spareBoundary c n s)

-- Fences (R97–R99) -------------------------------------------------------------------------------------------

/-- The spare that serves for a slot, if one stands in or substitutes (R95). -/
def spareFor (c slot : Nat) (s : State) : Option Nat :=
  firstBelow 4 (fun n => let w := rd (.clu c) (0x180 + 4 * n) s
    decide ((getF w 18 16 = 3 ∨ getF w 18 16 = 4) ∧ getF w 5 0 = slot))

/-- Bring a slot's fence in line with its request, at a step boundary (R97, R99, R95 orders 10 and 11). -/
def fenceNow (c slot : Nat) (s : State) : State :=
  let x := unitAt c slot s
  let want := rb (.unit c slot) 0x804 0 s
  if want = x.fenced then s
  else if want then
    let s := giveBack c slot (setUnit c slot { x with fenced := true } (logWritten s))
    let s := if x.underTest then leaveTest c slot s else s
    let s := writeRec { kind := 9, cluster := c, pslot := slot, pitch := pitchOfClu c s } s
    match spareFor c slot s with
    | none => s
    | some n =>
      if spareSt c n s = 4 then wf (.clu c) (0x180 + 4 * n) 10 8 1 (setSpareSt c n 3 s) else s
  else
    let s := logWritten s
    match spareFor c slot s with
    | none => recalibrate c slot (setUnit c slot { x with fenced := false } s)
    | some _ => setUnit c slot { x with fenced := false, underTest := true } s

/-- Whether a slot's change of fence may take effect: its unit is at a step boundary and nothing that must complete
first is in progress (R38). -/
def fenceMay (c slot : Nat) (s : State) : Bool := atBoundary c s && slotQuiet c slot s

/-- A write of UNIT_CTRL.FENCE: at once where no image runs in the cluster (R38, R97, R99). -/
def fenceWrite (c slot : Nat) (v : Bool) (s : State) : State :=
  let s := wb (.unit c slot) 0x804 0 v s
  if cluIdle c s && slotQuiet c slot s then fenceNow c slot s else s

/-- UNIT_FENCE (R97): UNIT_CTRL.FENCE is written with 1. -/
def execUnitFence (q : Requester) (c slot : Nat) (s : State) : Host.Outcome State Fault Refusal :=
  .next (guardWrite q (.unit c slot) 0x804 (fenceWrite c slot true) s)

/-- UNIT_FENCE_LIFT (R99): UNIT_CTRL.FENCE is written with 0. -/
def execUnitFenceLift (q : Requester) (c slot : Nat) (s : State) : Host.Outcome State Fault Refusal :=
  .next (guardWrite q (.unit c slot) 0x804 (fenceWrite c slot false) s)

/-- FENCE_TAKES_EFFECT (R38): the slot's unit is at its step boundary. -/
def execFenceTakesEffect (c slot : Nat) (s : State) : Host.Outcome State Fault Refusal :=
  .next (if fenceMay c slot s then fenceNow c slot s else s)

/-- A write of UNIT_MARGIN.CODE: a code below the floor sets the floor, outside the under-test role (R90). -/
def marginSet (c slot code : Nat) (s : State) : State :=
  let u := Page.unit c slot
  let floor := rf u 0x818 6 4 s
  if code < floor ∧ !(unitAt c slot s).underTest then recordErr u errFIELD (wf u 0x818 2 0 floor s)
  else wf u 0x818 2 0 code s

/-- MARGIN_WRITE (R90, R91): the code takes effect at the unit's next read start. -/
def execMarginWrite (q : Requester) (c slot code : Nat) (s : State) : Host.Outcome State Fault Refusal :=
  .next (guardWrite q (.unit c slot) 0x818 (marginSet c slot (code % 8)) s)

end Sys2Proof.Machine
end

