-- ==== Sys2Proof/Machine/Tables.lean ====
section
/-! DEFINITION. Cluster tables behind index registers (R146, R217, R225, R362, R363), precision counts (R151–R155)
and recipe selects (R157, R158). -/

namespace Sys2Proof.Machine

/-- Whether a unit action, a READ or a FORWARD, or a reduction entry of an admitted image names descriptor pair p in a cluster (R140, R141,
R212). -/
def pairUsed (c p : Nat) (s : State) : Bool :=
  let cl := cluAt c s
  admitted c s &&
    (cl.uat.any (fun e => decide ((fld e.2 1 0 = 1 ∨ fld e.2 1 0 = 2) ∧ fld e.2 33 32 = p)) || cl.red.any (fun e => decide (fld e.2 34 33 = p)))

/-- Whether a descriptor that an admitted image uses names a curve table (R141, R146). -/
def curveUsed (c n : Nat) (s : State) : Bool :=
  (List.range 8).any (fun d => pairUsed c (d % 4) s && decide ((descOf (rd (.clu c) (0x200 + 4 * d) s)).curve = n + 1))

/-- Advance a requester's index field by `by_` within a wrap. -/
def stepIdx (q : Requester) (c off hi by_ wrap : Nat) (s : State) : State :=
  let w := rdQ q (.clu c) off s
  wrQ q (.clu c) off (setF w hi 0 ((getF w hi 0 + by_) % wrap)) s

/-- Key of the addressed curve segment. -/
def curveKey (q : Requester) (c : Nat) (s : State) : Nat :=
  let w := rdQ q (.clu c) 0x248 s
  getF w 8 8 * 256 + getF w 7 0

/-- A read of CLU_CRVDATA (R146). -/
def curveRead (q : Requester) (c : Nat) (s : State) : Word × State :=
  (SMap.get 0 (cluAt c s).curves (curveKey q c s), stepIdx q c 0x248 7 1 256 s)

/-- A write of CLU_CRVDATA: discarded for a curve in use or on a locked page; SEG advances (R146, R744). -/
def curveWrite (q : Requester) (c : Nat) (v : Word) (s : State) : State :=
  let k := curveKey q c s
  let lk := locked (.clu c) s
  let used := curveUsed c (k / 256) s
  let s := if lk || used then s else updClu c (fun cl => { cl with curves := SMap.set 0 cl.curves k v }) s
  let s := recIf (!lk && used) (.clu c) errFIELD (recIf lk (.clu c) errLOCKWR s)
  stepIdx q c 0x248 7 1 256 s

/-- CURVE_DATA_ACCESS (R146): a read, or a write of a segment. -/
def execCurveDataAccess (q : Requester) (c : Nat) (w : Option Word) (s : State) : Host.Outcome State Fault Refusal :=
  match w with
  | none => .next (guardRead q (.clu c) (curveRead q c) s)
  | some v => .next (guardWrite q (.clu c) 0x24C (curveWrite q c v) s)

/-- The three tables of 64-bit entries of a cluster. -/
inductive EntTable where
  | uat | red | rte
deriving DecidableEq, Repr

/-- Offset of a table's index register; LO and HI follow it (R217, R225, R362). -/
def EntTable.idxOff : EntTable → Nat
  | .uat => 0x260
  | .red => 0x26C
  | .rte => 0x300

/-- Highest bit of a table's ENTRY field. -/
def EntTable.hi : EntTable → Nat
  | .red => 4
  | _ => 7

/-- The bits of a table's entries that are not reserved (R212, R218, R354). -/
def EntTable.mask : EntTable → Nat
  | .uat => 2 ^ 34 - 1
  | .red => 2 ^ 35 - 1
  | .rte => 2 ^ 44 - 1 - 2 ^ 15

/-- An entry of a table. -/
def entGet (t : EntTable) (cl : Cluster) (i : Nat) : Nat :=
  match t with
  | .uat => SMap.get 0 cl.uat i
  | .red => SMap.get 0 cl.red i
  | .rte => SMap.get 0 cl.rte i

/-- Set an entry of a table. -/
def entSet (t : EntTable) (i v : Nat) (cl : Cluster) : Cluster :=
  match t with
  | .uat => { cl with uat := SMap.set 0 cl.uat i v }
  | .red => { cl with red := SMap.set 0 cl.red i v }
  | .rte => { cl with rte := SMap.set 0 cl.rte i v }

/-- The entry a requester addresses. -/
def entIdx (t : EntTable) (q : Requester) (c : Nat) (s : State) : Nat := getF (rdQ q (.clu c) t.idxOff s) t.hi 0

/-- A read of the HI register of a table: bits [63:32] of the entry; the index advances. -/
def entReadHi (t : EntTable) (q : Requester) (c : Nat) (s : State) : Word × State :=
  (word (entGet t (cluAt c s) (entIdx t q c s) / 2 ^ 32), stepIdx q c t.idxOff t.hi 1 (2 ^ (t.hi + 1)) s)

/-- A read of the LO register of a table. -/
def entReadLo (t : EntTable) (q : Requester) (c : Nat) (s : State) : Word := word (entGet t (cluAt c s) (entIdx t q c s))

/-- A write of the HI register of a table: the requester's staged LO and the HI are committed together, unless an
image is admitted in the cluster's pitch or the page is locked; the index advances (R217, R225, R362, R729). The reserved bits of an entry stay
0, and a write that sets one is recorded (R21, R22). -/
def entWriteHi (t : EntTable) (q : Requester) (c : Nat) (hi : Word) (s : State) : State :=
  let i := entIdx t q c s
  let lo := (rdQ q (.clu c) (t.idxOff + 4) s).toNat
  let lk := locked (.clu c) s
  let used := admitted c s
  let v := lo + 2 ^ 32 * hi.toNat
  let kept := Nat.land v t.mask
  let s := if lk || used then s else updClu c (entSet t i kept) s
  let s := recIf (decide (kept ≠ v)) (.clu c) errRESWR s
  let s := recIf (!lk && used) (.clu c) errFIELD (recIf lk (.clu c) errLOCKWR s)
  stepIdx q c t.idxOff t.hi 1 (2 ^ (t.hi + 1)) s

/-- UAT_ENTRY_WRITE (R217). -/
def execUatEntryWrite (q : Requester) (c : Nat) (hi : Word) (s : State) : Host.Outcome State Fault Refusal :=
  .next (guardWrite q (.clu c) 0x268 (entWriteHi .uat q c hi) s)

/-- RED_ENTRY_WRITE (R225). -/
def execRedEntryWrite (q : Requester) (c : Nat) (hi : Word) (s : State) : Host.Outcome State Fault Refusal :=
  .next (guardWrite q (.clu c) 0x274 (entWriteHi .red q c hi) s)

/-- RTE_ENTRY_WRITE (R362). -/
def execRteEntryWrite (q : Requester) (c : Nat) (hi : Word) (s : State) : Host.Outcome State Fault Refusal :=
  .next (guardWrite q (.clu c) 0x308 (entWriteHi .rte q c hi) s)

/-- Key of routing entry i of a bank and a table (R331). -/
def routeKey (bank table i : Nat) : Nat := bank * 512 + table * 256 + i

/-- Bank, table and first entry that a requester addresses (R363). -/
def routeSel (q : Requester) (c : Nat) (s : State) : Nat × Nat × Nat :=
  let w := rdQ q (.clu c) 0x30C s
  let table := getF w 9 9
  let i := getF w 7 0
  (getF w 10 10, table, (i - i % 4) % (if table = 0 then 64 else 256))

/-- INDEX advances by four within its table (R363). -/
def routeAdvance (q : Requester) (c : Nat) (s : State) : State :=
  let (_, table, i) := routeSel q c s
  let w := rdQ q (.clu c) 0x30C s
  wrQ q (.clu c) 0x30C (setF w 7 0 ((i + 4) % (if table = 0 then 64 else 256))) s

/-- A read of CLU_RTDATA (R363). -/
def routeRead (q : Requester) (c : Nat) (s : State) : Word × State :=
  let (bank, table, i) := routeSel q c s
  let m := (cluAt c s).routing
  (word (sumN ((List.range 4).map (fun j => SMap.get 0 m (routeKey bank table (i + j)) * 2 ^ (8 * j)))), routeAdvance q c s)

/-- A write of CLU_RTDATA: discarded for the bank in use for injection; the reserved bits of an entry stay 0 and
are recorded (R22, R332, R363). -/
def routeWrite (q : Requester) (c : Nat) (v : Word) (s : State) : State :=
  let (bank, table, i) := routeSel q c s
  let inUse := decide (bank = (cluAt c s).bank)
  let ent (j : Nat) : Nat := getF v (8 * j + 7) (8 * j)
  let clean (e : Nat) : Nat := fld e 7 7 * 128 + fld e 1 0
  let s := if inUse then s
    else foldRange 4 (fun j s => updClu c (fun cl => { cl with routing := SMap.set 0 cl.routing (routeKey bank table (i + j)) (clean (ent j)) }) s) s
  let s := recIf (!inUse && (List.range 4).any (fun j => decide (fld (ent j) 6 2 ≠ 0))) (.clu c) errRESWR s
  routeAdvance q c (recIf inUse (.clu c) errFIELD s)

/-- ROUTING_TABLE_ACCESS (R363): a read or a write of four entries. -/
def execRoutingTableAccess (q : Requester) (c : Nat) (w : Option Word) (s : State) : Host.Outcome State Fault Refusal :=
  match w with
  | none => .next (guardRead q (.clu c) (routeRead q c) s)
  | some v => .next (guardWrite q (.clu c) 0x310 (routeWrite q c v) s)

-- Precision counts (R151–R155) ---------------------------------------------------------------------------

/-- PRECISION_EPOCH_REPORT (R152): a cluster sends its counts in a COUNTS message and clears them. -/
def execPrecisionEpochReport (c : Nat) (s : State) : Host.Outcome State Fault Refusal :=
  let m := (cluAt c s).counts
  let s := updClu c (fun cl => { cl with counts := [] }) s
  .next (if m.isEmpty then s else say .guyline (0xC :: c :: m.flatMap (fun e => [e.1 / 4, e.1 % 4, e.2])) s)

/-- Word i of a layer's counters: 0 to 3 the counts, 4 CNT_LPTHR, 5 CNT_LPFLAG (R153). -/
def layerWord (layer i : Nat) (s : State) : Word := SMap.get 0 s.layerRegs (layer * 8 + i)

/-- Store a word of a layer's counters. -/
def setLayerWord (layer i : Nat) (v : Word) (s : State) : State :=
  { s with layerRegs := SMap.set 0 s.layerRegs (layer * 8 + i) v }

/-- Add n events of a kind to a layer's counter and to the epoch's addition, and compare with the threshold
(R152, R154, R155). -/
def layerAdd (layer kind n : Nat) (s : State) : State :=
  let s := setLayerWord layer kind (word (satAdd 32 (layerWord layer kind s).toNat n)) s
  let key := layer * 4 + kind
  let total := SMap.get 0 s.epochAdd key + n
  let s := { s with epochAdd := SMap.set 0 s.epochAdd key total }
  let t := getF (layerWord layer 4 s) (8 * kind + 4) (8 * kind)
  if t ≠ 0 ∧ 2 ^ (t - 1) ≤ total then
    let s := setLayerWord layer 5 (setB (layerWord layer 5 s) kind true) s
    if s.epochRaised.contains kind then s else fire (64 + kind) { s with epochRaised := kind :: s.epochRaised }
  else s

/-- A new epoch begins for the precision counters (R154, R155). -/
def layerEpoch (s : State) : State := { s with epochAdd := [], epochRaised := [] }

-- Recipes (R156–R158) ----------------------------------------------------------------------------------------

/-- The slots whose images a recipe write is judged by (R158): the one whose admission last set the selects, or, where that image is admitted no
more, every admitted image. DESIGN CHOICE (entry 88): with more than one image admitted the rule does not say which is meant. -/
def recipeImages (s : State) : List Nat :=
  match s.rcpOwner.filter (fun n => (slotAt n s).st.holds) with
  | some n => [n]
  | none => (List.range 16).filter (fun n => (slotAt n s).st.holds)

/-- Why a recipe field's write is refused: 0 where it is not (R158). DESIGN CHOICE (entry 88): where several reasons apply, a reserved code goes
before a missing image, that before a layer beyond the image's, and that before a missing wide variant. -/
def recipeRefusal (layer code : Nat) (s : State) : Nat :=
  let xs := (recipeImages s).map (slotAt · s)
  if 1 < code then 1
  else if xs.isEmpty then 4
  else if xs.all (fun x => decide (x.layers ≤ layer)) then 3
  else if code = 1 ∧ !xs.any (fun x => decide (layer < x.layers) && bit x.wide layer) then 2
  else 0

/-- A write of ADM_RCPn: each field that the write would change takes effect or is refused (R157, R158). DESIGN CHOICE (entry 88): the fields
are taken in rising order of their layers, so the last refused field of a write is that of its highest refused layer. -/
def recipeWrite (n : Nat) (v : Word) (s : State) : State :=
  let off := 0x400 + 4 * n
  let (s, bad) := (List.range 16).foldl (fun (a : State × Bool) i =>
    let (s, bad) := a
    let old := rf pgAdm off (2 * i + 1) (2 * i) s
    let new := getF v (2 * i + 1) (2 * i)
    if new = old then (s, bad)
    else
      let r := recipeRefusal (16 * n + i) new s
      if r = 0 then (wf pgAdm off (2 * i + 1) (2 * i) new s, bad)
      else (wf pgAdm 0x444 3 0 r (wf pgAdm 0x444 11 4 (16 * n + i) (bump pgAdm 0x444 31 16 1 s)), true)) (s, false)
  recIf bad pgAdm errFIELD s

/-- RECIPE_SELECT_WRITE (R158). -/
def execRecipeSelectWrite (q : Requester) (n : Nat) (v : Word) (s : State) : Host.Outcome State Fault Refusal :=
  .next (guardWrite q pgAdm (0x400 + 4 * n) (recipeWrite n v) s)

end Sys2Proof.Machine
end

