-- ==== Sys2Proof/Machine/Calib.lean ====
section
/-! DEFINITION. The trim engine: calibration chunks (R176–R181), the baseline visits of start-up (R182, R438), coefficient
write-back (R183), refresh (R184–R189) and its commands (R209, R210). -/

namespace Sys2Proof.Machine

/-- Number of a task's set in a slot, and the plane it measures. DESIGN CHOICE (entry 92): R179 counts failures by "set" and names none; the
model keeps one set for COL, and one for each plane of REF, of RES and of tracking. -/
def taskSet : CalTask → Nat
  | .col => 0
  | .ref p => 1 + p % 2
  | .res p => 3 + p % 2

/-- The task of a set. -/
def setTask (i : Nat) : CalTask := if i = 0 then .col else if i < 3 then .ref (i - 1) else .res (i - 3)

/-- Chunks of one take (R176). -/
def taskChunks : CalTask → Nat
  | .col => 8
  | .ref _ => 4
  | .res _ => 16

/-- Sixteenths of a converter LSB in one unit of a task's values: COL and REF values are sixteenths of a code, RES
values eighths of a current unit at range ⅛, where a code is half a unit (R61, R176, R178). -/
def taskUnit : CalTask → Nat
  | .res _ => 4
  | _ => 1

/-- Whether an admitted image uses a logical unit (R297). -/
def unitUsed (c u : Nat) (s : State) : Bool :=
  (List.range 16).any (fun n => let x := slotAt n s; x.st.holds && bit (SMap.get 0 x.place c) u)

/-- Whether a spare is out of service (R92, R95): IDLE, or FAULTED. -/
def spareOut (c slot : Nat) (s : State) : Bool := decide (64 ≤ slot ∧ (spareSt c (slot - 64) s = 0 ∨ spareSt c (slot - 64) s = 5))

/-- Whether a unit may be given a chunk outside a gap (R177): a spare out of service, or a unit that no admitted image uses. -/
def calFree (c slot : Nat) (s : State) : Bool :=
  match (unitAt c slot s).serves with
  | none => spareOut c slot s
  | some u => !unitUsed c u s

/-- Whether a unit may be given a chunk (R177): one in a gap of its cluster's step, at any time as a spare out of service, or while no
admitted image uses it. -/
def calOpen (c slot : Nat) (s : State) : Bool :=
  let cl := cluAt c s
  calFree c slot s || (match (unitAt c slot s).serves with
    | none => false
    | some u =>
      cl.busy && cl.gap && !cl.chunked.contains slot && decide (uaKind (SMap.get 0 cl.uat (fld cl.word (8 * u + 7) (8 * u))) = 0))

/-- Whether R180 excludes a unit from a task. -/
def calBarred (c slot : Nat) (t : CalTask) (s : State) : Bool :=
  let x := unitAt c slot s
  x.fenced || x.underTest || (match t with
    | .col => false
    | .ref p => (x.plane p).st = .programming
    | .res p => (x.plane p).st = .programming)

/-- Sets of a unit that its next chunks must serve first (R180, R209): those due since it left a fence or the under-test role, and those of a
command that names it; an excluded one waits. -/
def dueSets (c slot : Nat) (s : State) : List Nat :=
  let recal := ((cluAt c s).recal.filter (fun e => e.1 = slot)).flatMap (·.2)
  let cmds := (rgnAt (regionOf c) s).cmds.filter (fun k => k.op = 1 ∧ k.cluster = localOf c)
  (recal ++ (cmds.flatMap (fun k => k.left.filter (fun e => e.1 = slot))).map (·.2)).filter (fun i => !calBarred c slot (setTask i) s)

/-- Whether a unit may be given a chunk of a task now (R180, R209): units that left a fence or the under-test role go before the others of their
cluster, and a unit's sets that are due before its other ones. -/
def calTurn (c slot : Nat) (t : CalTask) (s : State) : Bool :=
  let first := (cluAt c s).recal.filter (fun e => e.2.any (fun i => !calBarred c e.1 (setTask i) s))
  (first.isEmpty || first.any (fun e => e.1 = slot)) && ((dueSets c slot s).isEmpty || (dueSets c slot s).contains (taskSet t))

/-- Trims of a column from a take of COL (R168, R176): means at 8 and 120 current units in sixteenths of a code, 16 and 240 codes at range ¼.
DESIGN CHOICE (entry 91): COL measures the conversion path without its trims, and the new trims are minus the errors of gain and offset that it
finds, the offset that of code 0; the spec states no formula. -/
def colTrim (take : List (List Int)) (col : Nat) : Int × Int :=
  let vs := nth [] take (col % 8)
  let low := nth 0 vs (2 * (col / 8))
  let high := nth 0 vs (2 * (col / 8) + 1)
  let gain := -(rneDiv ((high - low - 1792) * 1000) 1792)
  let ofs := -(rneDiv ((low - 128) * 14 - (high - low - 1792)) 14)
  (gain, ofs)

/-- Write COL's result; a trim out of range holds its limit and sets SAT (R201). -/
def colResult (c slot : Nat) (take : List (List Int)) (s : State) : State :=
  let u := Page.unit c slot
  let trims := (List.range 136).map (colTrim take)
  let s := trims.zipIdx.foldl (fun s (t, i) =>
    wr u (0x900 + 4 * i) (word (tc 6 (clampI (-32) 31 t.1) * 2 ^ 8 + tc 6 (clampI (-32) 31 t.2))) s) s
  let sat := trims.any (fun t => decide (t.1 < -32 ∨ 31 < t.1 ∨ t.2 < -32 ∨ 31 < t.2))
  let s := wb u 0xB60 0 sat s
  if sat then fireRgn (regionOf c) 4 s else s

/-- Write REF's result: BASE and RTGT of the plane. The spec states no rule from the currents measured to these
coefficients, so they are free values. -/
def refResult (c slot p : Nat) (s : State) : State :=
  let u := Page.unit c slot
  let (a, s) := takeFree s
  let (b, s) := takeFree s
  let rt := fld b 29 24 * 2 ^ 24 + fld b 21 16 * 2 ^ 16 + fld b 13 8 * 2 ^ 8 + fld b 5 0
  wr u (0xB48 + 4 * p) (word rt) (wf u (0xB40 + 4 * p) 7 0 (a % 256) s)

/-- The largest value of a RES take with its row and group, the first on a tie (R176, R200). -/
def resLargest (take : List (List Int)) : Nat × Nat × Nat :=
  take.zipIdx.foldl (fun a (vs, j) => vs.zipIdx.foldl (fun (a : Nat × Nat × Nat) (d, i) =>
    if a.1 < d.natAbs then (d.natAbs, 8 * j + i / 4, i % 4) else a) a) (0, 0, 0)

/-- Write RES's result. -/
def resResult (c slot p : Nat) (d row group : Nat) (s : State) : State :=
  wr (.unit c slot) (0xB58 + 4 * p) (word ((row % 128) * 2 ^ 24 + (group % 4) * 2 ^ 16 + min d 65535)) s

/-- Write the result of an accepted measurement (R176). -/
def taskResult (c slot : Nat) (t : CalTask) (take : List (List Int)) (s : State) : State :=
  match t with
  | .col => colResult c slot take s
  | .ref p => refResult c slot (p % 2) s
  | .res p => let (d, r, g) := resLargest take; resResult c slot (p % 2) d r g s

/-- The sets of COL and of REF of both planes on the 68 units of a cluster (R209). -/
def clusterSets : List (Nat × Nat) := (List.range 68).flatMap (fun k => [(k, 0), (k, 1), (k, 2)])

/-- COL and REF on every unit of a region (R209): once no set of the cluster in turn is left but those of units that R180 excludes, the next
cluster follows. DESIGN CHOICE (entry 97): the units excluded then are passed over, since the operation names no unit that R210 could make it
wait for. -/
def cmdNext : Nat → Nat → TrimCmd → State → TrimCmd
  | 0, _, k, _ => k
  | fuel + 1, r, k, s =>
    if k.left.all (fun e => calBarred (clusterOf r k.cluster) e.1 (setTask e.2) s) then
      if k.cluster < 255 then cmdNext fuel r { k with cluster := k.cluster + 1, left := clusterSets } s
      else { k with left := [] }
    else k

/-- Take a completed set from a command that waits for it. -/
def cmdSet (r l slot i : Nat) (s : State) (k : TrimCmd) : TrimCmd :=
  let k := if k.cluster = l ∧ k.op ≠ 4 then { k with left := k.left.filter (· ≠ (slot, i)) } else k
  if k.op = 2 then cmdNext 256 r k s else k

/-- The end of a task on a unit: it is no longer due, and the commands that waited for it alone are complete (R180, R209). -/
def taskEnded (c slot : Nat) (t : CalTask) (s : State) : State :=
  let r := regionOf c
  let i := taskSet t
  let left (e : Nat × List Nat) : Nat × List Nat := if e.1 = slot then (e.1, e.2.filter (· ≠ i)) else e
  let s := updClu c (fun cl => { cl with recal := (cl.recal.map left).filter (fun e => !e.2.isEmpty) }) s
  updRgn r (fun x => { x with cmds := (x.cmds.map (cmdSet r (localOf c) slot i s)).filter (fun k => decide (k.op = 4) || !k.left.isEmpty) }) s

/-- Compare the two takes of a pair (R178, R179). Which of two agreeing takes gives the coefficients is free. -/
def taskPair (c slot : Nat) (t : CalTask) (a b : List (List Int)) (s : State) : State :=
  let i := taskSet t
  let trm := pgTrm (regionOf c)
  let x := unitAt c slot s
  let k := SMap.get CalSet.empty x.cal i
  let tol := rf trm 0x100 15 8 s
  let agree := (a.zip b).all (fun (u, v) => decide (u.length = v.length) &&
    (u.zip v).all (fun (m, n) => decide ((m - n).natAbs * taskUnit t ≤ tol)))
  let s := if k.retries = 0 then s else bump trm 0x160 31 0 1 s
  if agree then
    let (w, s) := takeFree s
    taskEnded c slot t (calAccept c slot i (taskResult c slot t (if w % 2 = 0 then a else b) s))
  else if rf trm 0x100 19 16 s ≤ k.retries then taskEnded c slot t (calFail c slot i s)
  else setUnit c slot { x with cal := SMap.set CalSet.empty x.cal i { k with retries := k.retries + 1, chunks := [], takes := [] } } s

/-- Take one chunk's values into a task's set. -/
def takeChunk (c slot : Nat) (t : CalTask) (vals : List Int) (s : State) : State :=
  let i := taskSet t
  let x := unitAt c slot s
  let k := SMap.get CalSet.empty x.cal i
  let chunks := k.chunks ++ [vals]
  if chunks.length < taskChunks t then
    setUnit c slot { x with cal := SMap.set CalSet.empty x.cal i { k with chunks := chunks } } s
  else match k.takes with
    | [] => setUnit c slot { x with cal := SMap.set CalSet.empty x.cal i { k with chunks := [], takes := chunks } } s
    | a => taskPair c slot t a chunks s

/-- CAL_CHUNK (R176–R180): one chunk of a task on a unit, with the values it measured: for COL, means at the two
currents of one column of each converter; for REF, two half means of one level; for RES, d[g] of eight rows. A unit takes one chunk in a gap step. -/
def execCalChunk (c slot : Nat) (task : CalTask) (vals : List Int) (s : State) : Host.Outcome State Fault Refusal :=
  let x := rgnAt (regionOf c) s
  if !rb (pgTrm (regionOf c)) 0x100 0 s || x.fenced || x.off || calBarred c slot task s || !calTurn c slot task s || !calOpen c slot s
  then .next s
  else .next (takeChunk c slot task vals (updClu c (fun cl => { cl with chunked := slot :: cl.chunked }) (countRgn (regionOf c) 0x19 1 s)))

/-- A task of a baseline visit on one unit: pairs of takes until the measurement is accepted or fails (R178, R179, R182). With no take given, both
takes found the coefficients in force. -/
def basePairs (c slot : Nat) (t : CalTask) : List (List (List Int)) → State → State
  | [], s => calAccept c slot (taskSet t) s
  | [_], s => s
  | [a, b], s => taskPair c slot t a b s
  | a :: b :: rest, s =>
    let tries (s : State) : Nat := (SMap.get CalSet.empty (unitAt c slot s).cal (taskSet t)).retries
    let s' := taskPair c slot t a b s
    if tries s < tries s' then basePairs c slot t rest s' else s'

/-- The tasks of a baseline visit on one unit (R182): COL, REF of both planes, and RES of every plane with a committed record. -/
def baseTasks (c slot : Nat) (s : State) : List CalTask :=
  [.col, .ref 0, .ref 1] ++ ((List.range 2).filter (fun p => match (unitAt c slot s).serves with
    | none => false
    | some l => (recOf (upKey c l p) s).isSome)).map .res

/-- A baseline visit's tasks on one unit, but for those that R180 excludes. -/
def baseUnit (c : Nat) (cals : List BaseCal) (slot : Nat) (s : State) : State :=
  (baseTasks c slot s).foldl (fun s t =>
    if calBarred c slot t s then s
    else basePairs c slot t ((cals.filter (fun b => b.slot = slot ∧ b.task = t)).flatMap (·.takes)) s) s

/-- The warm check of a unit-plane under a record (R438): RESIDENT, or FAULTED with its record PARTIAL. -/
def warmCheck (checks : List CheckErr) (c slot p : Nat) (s : State) : State :=
  match (unitAt c slot s).serves with
  | none => s
  | some l =>
    match recOf (upKey c l p) s with
    | none => s
    | some n =>
      if ((unitAt c slot s).plane p).st ≠ .checking then s
      else
        let errs := (checks.filter (fun e => e.c = c ∧ e.slot = slot ∧ e.p = p)).flatMap (·.errs)
        let (ok, s) := checkReads c slot p errs s
        if ok then updPlane c slot p (fun y => { y with st := .resident }) s
        else updRes n (fun r => { r with st := 2 }) (updPlane c slot p (fun y => { y with st := .faulted }) s)

/-- BASELINE_CLUSTER_VISIT (R182, R438): the trim engine of a region visits its next cluster in index order, with the
takes measured there and the conversion errors of the warm check reads; after the last it is done. DESIGN CHOICE (entry 93): TRM_STAT.CLUSTER
goes on showing the last cluster visited, 255; R204 does not say what it shows when no visit is under way. -/
def execBaselineClusterVisit (r : Nat) (cals : List BaseCal) (checks : List CheckErr) (s : State) :
    Host.Outcome State Fault Refusal :=
  let x := rgnAt r s
  let trm := pgTrm r
  if x.fenced || x.off || rb trm 0x104 1 s then .next s
  else
    let v := x.visit
    let c := clusterOf r (v % 256)
    let s := wf trm 0x104 15 8 v s
    let s := foldRange 68 (baseUnit c cals) s
    let s := foldRange 68 (fun k s => warmCheck checks c k 1 (warmCheck checks c k 0 s)) s
    let s := updRgn r (fun x => { x with visit := v + 1 }) s
    .next (if v + 1 < 256 then s else wb trm 0x104 1 true s)

/-- The words of a unit's coefficients that the Logbook keeps: trims, drive words (BASE) and retargets (R183). -/
def coefWords (c slot : Nat) (s : State) : List Word :=
  let u := Page.unit c slot
  (List.range 136).map (fun i => rd u (0x900 + 4 * i) s) ++
    [word (rf u 0xB40 7 0 s), word (rf u 0xB44 7 0 s), rd u 0xB48 s, rd u 0xB4C s]

/-- Periods in an hour. -/
def hour : Nat := 3600 * 100000000

/-- COEFF_WRITEBACK (R183): at most once an hour for a unit. -/
def execCoeffWriteback (c slot : Nat) (s : State) : Host.Outcome State Fault Refusal :=
  let k := ukey c slot
  let last := SMap.get 0 s.logTime k
  if last ≠ 0 ∧ now s + 1 < last + hour then .next s
  else .next (logWritten { s with logCoef := SMap.set [] s.logCoef k (coefWords c slot s), logTime := SMap.set 0 s.logTime k (now s + 1) })

-- Refresh (R184–R189) -----------------------------------------------------------------------------------

/-- Offset of a plane's last programming time (R202). -/
def pgmTimeOff (p : Nat) : Nat := 0xB6C + 8 * p

/-- Whether DAYS have passed since a plane's last programming (R184). -/
def daysPassed (c slot p : Nat) (s : State) : Bool :=
  let days := rf (pgTrm (regionOf c)) 0x154 23 16 s
  decide (rd64 (.unit c slot) (pgmTimeOff p) s + days * 24 * hour ≤ now s)

/-- Whether a command asks for the plane's refresh. -/
def refreshAsked (c slot p : Nat) (s : State) : Bool :=
  (rgnAt (regionOf c) s).cmds.any (fun k => k.op = 4 ∧ !k.begun ∧ k.cluster = localOf c ∧ k.slot = slot ∧ k.plane = p)

/-- Whether a plane is due for refresh (R184, R209). -/
def refreshDue (c slot p : Nat) (s : State) : Bool :=
  refreshAsked c slot p s || (rb (pgTrm (regionOf c)) 0x100 3 s &&
    (decide (rf (pgTrm (regionOf c)) 0x154 15 0 s < rf (.unit c slot) (0xB58 + 4 * p) 15 0 s) || daysPassed c slot p s))

/-- A region's queue with one refresh before every other refresh (R189). -/
def refreshFirst (q : PgmReq) (l : List PgmReq) : List PgmReq :=
  let l := l.filter (· ≠ q)
  l.takeWhile (fun a => a.kind ≠ .refresh) ++ q :: l.dropWhile (fun a => a.kind ≠ .refresh)

/-- Queue a plane's refresh with the region controller: an overdue plane before every other refresh (R187, R189). A command that asked for it has
begun (R210). -/
def queueRefresh (c slot p : Nat) (s : State) : State :=
  let q : PgmReq := { unit := ukey c slot, plane := p, kind := .refresh }
  updRgn (regionOf c) (fun x =>
    { x with
      queue := if x.queue.contains q || x.active.contains q then x.queue
        else if x.overdue.contains (ukey c slot, p) then refreshFirst q x.queue
        else x.queue ++ [q],
      cmds := x.cmds.map (fun k => if k.op = 4 ∧ k.cluster = localOf c ∧ k.slot = slot ∧ k.plane = p then { k with begun := true } else k) }) s

/-- IDLE spares of a cluster that no command has taken. -/
def idleSpares (c : Nat) (s : State) : List Nat :=
  (List.range 4).filter (fun n => decide (rf (.clu c) (0x180 + 4 * n) 18 16 s = 0 ∧ rf (.clu c) (0x180 + 4 * n) 10 8 s = 0))

/-- Whether a spare is named for a logical unit already (R94). -/
def spareNamed (c l : Nat) (s : State) : Bool :=
  (List.range 4).any (fun n => decide (rf (.clu c) (0x180 + 4 * n) 10 8 s ≠ 0 ∧ rf (.clu c) (0x180 + 4 * n) 5 0 s = l))

/-- Whether a slot is in the under-test role for something else than a refresh of it (R185, R210, R517). -/
def underOther (c slot : Nat) (s : State) : Bool :=
  (unitAt c slot s).underTest && (match spareFor c slot s with
    | none => true
    | some n => !(cluAt c s).refr.contains n)

/-- Another plane of the cluster that is overdue and in use waits for a spare (R189). -/
def overdueWaits (c slot p : Nat) (s : State) : Bool :=
  (rgnAt (regionOf c) s).overdue.any (fun k => decide (k.1 / 128 = c ∧ k ≠ (ukey c slot, p)) && planeHeld c (k.1 % 128) k.2 s)

/-- REFRESH_START (R184, R185, R187, R189): a released plane is refreshed in place; for a held one a spare first stands in,
while another spare stays IDLE and no overdue plane of the cluster waits for one. A unit under a fence or a stress test waits (R210). -/
def execRefreshStart (c slot p : Nat) (s : State) : Host.Outcome State Fault Refusal :=
  let x := unitAt c slot s
  let g := rgnAt (regionOf c) s
  if g.fenced || g.off || x.fenced || underOther c slot s || decide ((x.plane p).st ≠ .resident) || !refreshDue c slot p s then .next s
  else if !planeHeld c slot p s then .next (queueRefresh c slot p s)
  else
    match x.serves, idleSpares c s with
    | some l, n :: _ :: _ =>
      if 64 ≤ slot ∨ spareNamed c l s ∨ (!g.overdue.contains (ukey c slot, p) ∧ overdueWaits c slot p s) then .next s
      else .next (updClu c (fun cl => { cl with refr := n :: cl.refr.filter (· ≠ n) }) (spareWrite c n l 2 0 s))
    | _, _ => .next (wantSpare c s)

/-- Whether a plane's refresh waits: for a programming slot, or for a spare that would stand in (R185, R187). -/
def refreshWaits (c slot p : Nat) (s : State) : Bool :=
  (rgnAt (regionOf c) s).queue.contains { unit := ukey c slot, plane := p, kind := .refresh } ||
    (planeHeld c slot p s && decide ((idleSpares c s).length < 2))

/-- REFRESH_OVERDUE (R189): a plane not refreshed within DAYS for want of a slot or a spare raises TRM_REFRESH once and goes first. -/
def execRefreshOverdue (c slot p : Nat) (s : State) : Host.Outcome State Fault Refusal :=
  let r := regionOf c
  let k := (ukey c slot, p)
  let g := rgnAt r s
  let q : PgmReq := { unit := ukey c slot, plane := p, kind := .refresh }
  if g.fenced || g.off || !rb (pgTrm r) 0x100 3 s || decide (((unitAt c slot s).plane p).st ≠ .resident) || !daysPassed c slot p s ||
    g.overdue.contains k || !refreshWaits c slot p s
  then .next s
  else .next (fireRgn r 6 (updRgn r (fun x =>
    { x with overdue := k :: x.overdue, queue := if x.queue.contains q then refreshFirst q x.queue else x.queue }) s))

/-- Write a plane's wear count to the Logbook (R111). -/
def saveWear (c slot p : Nat) (s : State) : State :=
  { s with logWear := SMap.set 0 s.logWear (2 * ukey c slot + p) (rd (.unit c slot) (0x834 + 4 * p) s).toNat }

/-- Commit of a plane's programming (R86, R111, R202, R428): RESIDENT, with its time, and with its wear, tolerances, format and JOIN kept by the
Logbook. -/
def planeCommit (c slot p : Nat) (s : State) : State :=
  let u := Page.unit c slot
  let cfg := rd u 0x80C s
  let log : Committed := { tol := rd u (0x810 + 4 * p) s, fmt := if p = 0 then getF cfg 6 4 else getF cfg 10 8, join := getB cfg 0 }
  let s := saveWear c slot p s
  let s := updPlane c slot p (fun y => { y with st := .resident, goal := [], retried := false, started := false, logged := some log }) s
  updRgn (regionOf c) (fun x => { x with overdue := x.overdue.filter (· ≠ (ukey c slot, p)) }) (wr64 u (pgmTimeOff p) (now s) s)

/-- Whether a refresh of either plane of a slot is queued or in progress. -/
def refreshing (c slot : Nat) (s : State) : Bool :=
  let x := rgnAt (regionOf c) s
  (x.queue ++ x.active).any (fun q => decide (q.unit = ukey c slot ∧ q.kind = .refresh))

/-- A refresh is over: the spare that stood in for it is sent back, once no other refresh of the unit goes on (R185). -/
def refreshReturn (c slot : Nat) (s : State) : State :=
  match spareFor c slot s with
  | none => s
  | some n =>
    if (cluAt c s).refr.contains n && decide (spareSt c n s = 4) && !refreshing c slot s then
      let w := rd (.clu c) (0x180 + 4 * n) s
      spareWrite c n (getF w 5 0) 0 (getF w 13 12) s
    else s

/-- The commit of a refresh (R185): the plane is RESIDENT again, its time is kept, and a stand-in is sent back. -/
def refreshCommit (c slot p : Nat) (s : State) : State :=
  refreshReturn c slot (say .record [0, 0x185, ukey c slot, p] (logWritten (planeCommit c slot p (refreshOver c slot p s))))

/-- The check reads of a refreshed plane (R185): it commits, or becomes FAULTED and raises PGMFAIL. -/
def refreshChecks (c slot p : Nat) (errs : List (Nat × ConvErr)) (s : State) : State :=
  let (ok, s) := checkReads c slot p errs s
  if ok then refreshCommit c slot p s
  else unitEvt c slot 5 (updPlane c slot p (fun y => { y with st := .faulted }) (refreshOver c slot p s))

-- Commands (R209, R210) ----------------------------------------------------------------------------------------

/-- A write of TRM_CMD: void for a slot above 67; a reserved code is recorded; a command equal to one that waits is
merged with it (R209, R210). -/
def trmCommand (r op cluster slot plane : Nat) (s : State) : State :=
  if 4 < op ∨ 67 < slot then recordErr (pgTrm r) errFIELD s
  else if op = 0 then s
  else
    let p := plane % 2
    let k : TrimCmd := match op with
      | 1 => { op := 1, cluster := cluster % 256, slot := slot, plane := 0, left := [(slot, 0), (slot, 1), (slot, 2)], begun := false }
      | 2 => { op := 2, cluster := 0, slot := 0, plane := 0, left := clusterSets, begun := false }
      | 3 => { op := 3, cluster := cluster % 256, slot := slot, plane := p, left := [(slot, 3 + p)], begun := false }
      | _ => { op := 4, cluster := cluster % 256, slot := slot, plane := p, left := [], begun := false }
    let same (x : TrimCmd) : Bool := decide (x.op = k.op) && (decide (k.op = 2) || decide (x.cluster = k.cluster ∧ x.slot = k.slot ∧ x.plane = k.plane))
    updRgn r (fun x => if x.cmds.any same then x else { x with cmds := x.cmds ++ [k] }) s

/-- TRM_CMD_COL_REF (R209). -/
def execTrmCmdColRef (q : Requester) (r cluster slot : Nat) (s : State) : Host.Outcome State Fault Refusal :=
  .next (guardWrite q (pgTrm r) 0x158 (trmCommand r 1 cluster slot 0) s)

/-- TRM_CMD_COL_REF_REGION (R209). -/
def execTrmCmdColRefRegion (q : Requester) (r : Nat) (s : State) : Host.Outcome State Fault Refusal :=
  .next (guardWrite q (pgTrm r) 0x158 (trmCommand r 2 0 0 0) s)

/-- TRM_CMD_RES (R209). -/
def execTrmCmdRes (q : Requester) (r cluster slot plane : Nat) (s : State) : Host.Outcome State Fault Refusal :=
  .next (guardWrite q (pgTrm r) 0x158 (trmCommand r 3 cluster slot plane) s)

/-- TRM_CMD_REFRESH (R209). -/
def execTrmCmdRefresh (q : Requester) (r cluster slot plane : Nat) (s : State) : Host.Outcome State Fault Refusal :=
  .next (guardWrite q (pgTrm r) 0x158 (trmCommand r 4 cluster slot plane) s)

end Sys2Proof.Machine
end

