-- ==== Sys2Proof/Machine/Reduce.lean ====
section
/-! DEFINITION. The reduction unit (R218–R225), sequence control (R261, R262), and the lane store (R234, R235). -/

namespace Sys2Proof.Machine

-- Fields of a reduction entry (R218) --------------------------------------------------------------------

def rdUnits (e : Nat) : Nat := fld e 3 0
def rdRems (e : Nat) : Nat := fld e 6 4
def rdRin (e : Nat) : Bool := bit e 7
def rdRline (e : Nat) : Nat := fld e 16 8
def rdResid (e : Nat) : Bool := bit e 17
def rdDest (e : Nat) : Nat := fld e 20 18
def rdDaddr (e : Nat) : Nat := fld e 32 21
def rdDesc (e : Nat) : Nat := fld e 34 33

/-- Whether an armed entry takes one more contribution of a kind (R218, R222). -/
def takesMore (ent : Nat) (a : Armed) (remote : Bool) : Bool :=
  if remote then decide (a.rems < rdRems ent) else decide (a.units < rdUnits ent)

/-- Take one contribution more. -/
def Armed.add (a : Armed) (remote : Bool) (src : Nat) (blks : List Blk) : Armed :=
  { a with units := a.units + b2n (!remote), rems := a.rems + b2n remote, got := a.got ++ [blks.map takeBlk],
           srcs := a.srcs ++ [src] }

/-- Write a contribution sent again over the first of its sender (R504). -/
def Armed.over (a : Armed) (src : Nat) (blks : List Blk) : Armed :=
  { a with got := setNth a.got (a.srcs.findIdx (· == src)) (blks.map takeBlk) }

/-- A contribution arrives at a reduction entry: counted towards completion, written over the one its sender sent
before, or discarded as a stray (R220, R222, R504). -/
def contribute (c e : Nat) (remote : Bool) (src : Nat) (blks : List Blk) (s : State) : State :=
  let cl := cluAt c s
  let ent := SMap.get 0 cl.red e
  let put (f : Armed → Armed) : State :=
    updClu c (fun cl => { cl with armed := cl.armed.map (fun a => if a.entry = e then f a else a) }) (noteHdr (.clu c) blks s)
  match cl.armed.find? (fun a => a.entry = e) with
  | none => recordErr (.clu c) errBLOCK (bump (.clu c) 0x278 23 16 1 s)
  | some a =>
    if takesMore ent a remote then put (fun a => a.add remote src blks)
    else if src ≠ anon ∧ a.srcs.contains src then put (fun a => a.over src blks)
    else recordErr (.clu c) errBLOCK (bump (.clu c) 0x278 23 16 1 s)

/-- Arm one reduction entry for a step: the residual, where the entry has one, is read now (R220). In a step executed again the arrivals that the
replay ring holds for it are delivered once it is armed (R503). -/
def armEntry (c e step : Nat) (ecc : List (Nat × Bool)) (s : State) : State :=
  let ent := SMap.get 0 (cluAt c s).red e
  let (res, s) := if rdRin ent then readRun 4 c (rdRline ent) step ecc s else ([], s)
  let a : Armed := { entry := e, units := 0, rems := 0, got := if rdRin ent then [res] else [],
                     srcs := if rdRin ent then [anon] else [], step := step,
                     wide := wideFor c (rdDesc ent) s }
  let s := updClu c (fun cl => { cl with armed := cl.armed ++ [a] }) s
  let cl := cluAt c s
  if !cl.again then s
  else
    let recs := ((cl.ring.filter (fun x => x.step = step)).flatMap (·.recs)).filter (fun r => r.kind = 1 ∧ r.sub = e)
    recs.foldl (fun s r => contribute c e true r.src r.blks s) s

/-- Whether an entry may be armed now: it does not accumulate, and fewer than 16 do (R221). -/
def mayArm (c e : Nat) (s : State) : Bool :=
  let cl := cluAt c s
  decide (cl.armed.length < 16) && !(cl.armed.any (fun a => a.entry = e))

/-- Arm what waits and may be armed, in order (R221). -/
def armWaiting (c step : Nat) (ecc : List (Nat × Bool)) (s : State) : State :=
  (cluAt c s).waitArm.foldl (fun s e =>
    if mayArm c e s then
      armEntry c e step ecc (updClu c (fun cl => { cl with waitArm := cl.waitArm.filter (· ≠ e) }) s)
    else s) s

/-- REDUCTION_CONTRIBUTION (R220, R222). -/
def execReductionContribution (c e : Nat) (remote : Bool) (blks : List Blk) (s : State) : Host.Outcome State Fault Refusal :=
  .next (contribute c (e % 32) remote anon blks s)

/-- Whether an armed entry holds every contribution (R220). -/
def entryFull (ent : Nat) (a : Armed) : Bool := decide (a.units = rdUnits ent ∧ a.rems = rdRems ent)

/-- Block g of a contribution; a missing one is a zero block. -/
def blkOf (l : List Blk) (g : Nat) : Blk := nth (zeroBlk .p24 false 0 0 0 0) l g

/-- The result of a completed entry: sums, post-operation, cause and identity (R136, R220, R223), with its
alignment-loss events. -/
def reduceResult (c ent : Nat) (a : Armed) (s : State) : List Blk × Nat × Bool :=
  let all := a.got.flatten
  let h := blkOf (nth [] a.got 0) 0
  let mix := all.any (fun b => decide (b.pt ≠ h.pt ∨ b.sid ≠ h.sid))
  let cause := causeFirst (all.map (·.cause) ++ (if mix then [causeIllegal] else []))
  let d := descFor c (rdDesc ent) a.wide s
  let outs := (List.range 4).map (fun g =>
    let sr := fun i => if rdResid ent then some (draw16 3 c h.sid a.step (32 * g + i)) else none
    let (b, loss) := reduceBlks (a.got.map (fun l => blkOf l g)) sr
    ({ postOp c d 2 c h.sid a.step (32 * g) b s with cause := cause, pt := h.pt, sid := h.sid, bslot := h.bslot }, loss))
  (outs.map (·.1), sumN (outs.map (·.2)), mix)

/-- Whether blocks that a step sends to other clusters are still to be accepted, or to be sent by an entry that it armed (R269). -/
def sendsOpen (cl : Cluster) (step : Nat) : Bool :=
  cl.sent.any (fun m => m.step = step && m.kind ≠ 5) || cl.armed.any (fun a => a.step = step && decide (rdDest (SMap.get 0 cl.red a.entry) = 4))

/-- A step's token leaves once every block of the step has been accepted where it was sent (R269, R338). -/
def tokenIfResolved (c step : Nat) (s : State) : State :=
  let cl := cluAt c s
  if sendsOpen cl step then s
  else match cl.tokWait.find? (fun t => t.1 = step) with
    | none => s
    | some t => sendToken c t.2.1 t.2.2 step (updClu c (fun cl => { cl with tokWait := cl.tokWait.filter (fun t => t.1 ≠ step) }) s)

/-- Complete an entry: count, deliver, report a mix, disarm, and arm what waited (R220–R223), with the word errors of the lines that it reads. -/
def completeEntry (c : Nat) (a : Armed) (ecc : List (Nat × Bool)) (s : State) : State :=
  let ent := SMap.get 0 (cluAt c s).red a.entry
  let (outs, loss, mix) := reduceResult c ent a s
  let d := descFor c (rdDesc ent) a.wide s
  let s := updClu c (fun cl => { cl with armed := cl.armed.filter (fun x => x.entry ≠ a.entry) }) s
  let s := countRgn (regionOf c) 0x30 1 (countPrec c d.layer 3 loss (countOut c d outs s))
  let s := if mix then report c a.step orgIllegal (blkOf outs 0).cause 0x7F (bump (.clu c) 0x278 31 24 1 s) else s
  let s := deliver c (64 + a.entry) (rdDest ent) (rdDaddr ent) a.step outs s
  tokenIfResolved c a.step (armWaiting c ((cluAt c s).next - 1) ecc s)

/-- REDUCTION_COMPLETE (R220): entry e, when it holds all its contributions, forms its result. -/
def execReductionComplete (c e : Nat) (ecc : List (Nat × Bool)) (s : State) : Host.Outcome State Fault Refusal :=
  let cl := cluAt c s
  match cl.armed.find? (fun a => a.entry = e && entryFull (SMap.get 0 cl.red e) a) with
  | none => .next s
  | some a => .next (completeEntry c a ecc s)

-- Sequence control (R261, R262) ---------------------------------------------------------------------------

def seqRepeat (q : Nat) : Nat := fld q 7 0
def seqEnd (q : Nat) : Bool := bit q 8
def seqBack (q : Nat) : Nat := fld q 16 9
def seqCount (q : Nat) : Nat := fld q 28 17
def seqLvl (q : Nat) : Nat := fld q 30 29

/-- Iterations left of an open loop. -/
def loopLeft (o : List (Nat × Nat)) (l : Nat) : Option Nat := (o.find? (fun e => e.1 = l)).map (·.2)

/-- The position after one step of the word at a position of an n-word stream (R262): `q` is that word's SEQ. -/
def seqNext (n q : Nat) (p : SeqPos) : SeqPos :=
  if p.rep < seqRepeat q then { p with rep := p.rep + 1, step := p.step + 1 }
  else
    let p := { p with rep := 0, step := p.step + 1 }
    let on (w : Nat) (o : List (Nat × Nat)) : SeqPos := { p with w := w, opn := o, fin := decide (n ≤ w) }
    if seqEnd q then
      if seqCount q = 0 then on (p.w - seqBack q) p.opn
      else
        let l := seqLvl q
        let left := (loopLeft p.opn l).getD (seqCount q) - 1
        let rest := p.opn.filter (fun e => e.1 ≠ l)
        if 0 < left then on (p.w - seqBack q) ((l, left) :: rest) else on (p.w + 1) rest
    else on (p.w + 1) p.opn

-- Lane store (R234, R235, R265) ------------------------------------------------------------------------------

/-- Address and number of words of a cluster's lane stream. -/
def laneStream (c : Nat) (s : State) : Nat × Nat :=
  match slotOfClu c s with
  | none => (0, 0)
  | some n => SMap.get (0, 0) (slotAt n s).lanes c

/-- Word w of a cluster's lane stream, as stack memory holds it (R296). -/
def laneMem (c w : Nat) (s : State) : Nat := leNat (memRead ((laneStream c s).1 + 72 * w) 72 s)

/-- SEQ of a lane word (R261). -/
def laneSeq (word : Nat) : Nat := fld word 543 512

/-- Lane words a cluster's store holds (R234). -/
def laneSlots : Nat := 224

/-- Whether a lane word is in the store. -/
def laneHeld (cl : Cluster) (w : Nat) : Bool := decide (cl.lbase ≤ w ∧ w < cl.loaded)

/-- A word of a cluster's lane stream: from the lane store where it is held, else as stack memory holds it. -/
def laneWord (c w : Nat) (s : State) : Nat :=
  let cl := cluAt c s
  if laneHeld cl w then SMap.get 0 cl.store w else laneMem c w s

/-- The first word that a loop still open at a position returns to (R234, R265): the loader reads the loops from the stream, and no loop body
exceeds 192 words. -/
def laneLow (c w : Nat) (s : State) : Nat :=
  (List.range (min 192 ((laneStream c s).2 - w))).foldl (fun a i =>
    let q := laneSeq (laneWord c (w + i) s)
    if seqEnd q ∧ w + i - seqBack q < a then w + i - seqBack q else a) w

/-- LANE_WORD_REFILL (R234): the loader writes the stream's next word into a free slot of the lane store; the slots of
words passed, to which no loop returns, are free. After a rollback to a word no longer held it starts there again. -/
def execLaneWordRefill (c : Nat) (s : State) : Host.Outcome State Fault Refusal :=
  let cl := cluAt c s
  let (_, n) := laneStream c s
  let cl := if cl.lane.w < cl.lbase then { cl with store := [], lbase := cl.lane.w, loaded := cl.lane.w } else cl
  let low := max cl.lbase (laneLow c cl.lane.w s)
  if n ≤ cl.loaded ∨ laneSlots ≤ cl.loaded - low then .next s
  else
    let kept := cl.store.filter (fun e => decide (low ≤ e.1))
    .next (setClu c { cl with store := SMap.set 0 kept cl.loaded (laneMem c cl.loaded s), lbase := low, loaded := cl.loaded + 1,
                              laneWait := false } s)

end Sys2Proof.Machine
end

