-- ==== Sys2Proof/Machine/Stack.lean ====
section
/-! DEFINITION. Stack controllers (R372–R387): requests, responses, the sector code, patrol and pin repair. -/

namespace Sys2Proof.Machine

/-- Region that carries each stack port (R372). -/
def stkRegion (n : Nat) : Nat :=
  nth 0 [1, 2, 3, 5, 6, 15, 23, 31, 47, 55, 62, 61, 59, 58, 57, 48, 40, 24, 16, 8] n

/-- Attachment cluster of each stack port (R372). -/
def stkCluster (n : Nat) : Nat :=
  let (x, y) := nth (0, 0) [(24, 0), (40, 0), (56, 0), (88, 0), (104, 0), (127, 24), (127, 40), (127, 56), (127, 88),
    (127, 104), (104, 127), (88, 127), (56, 127), (40, 127), (24, 127), (0, 104), (0, 88), (0, 56), (0, 40), (0, 24)] n
  y * 128 + x

/-- A stack controller. -/
def stkAt (n : Nat) (s : State) : Stk := SMap.get Stk.empty s.stks n

/-- Change a stack controller. -/
def updStk (n : Nat) (f : Stk → Stk) (s : State) : State := { s with stks := SMap.set Stk.empty s.stks n (f (stkAt n s)) }

/-- Whether a stack's fence is written (R388). -/
def stkFenced (n : Nat) (s : State) : Bool := rb (pgStk n) 0x100 0 s

/-- Whether an address answers FENCED: its stack is fenced, or its group is interleaved over a fenced stack (R388). -/
def addrFenced (a : Nat) (s : State) : Bool :=
  let g := a / groupSize
  match placeOf a s with
  | none => false
  | some (n, _) => stkFenced n s || (interleaved g s && (List.range 4).any (fun i => stkFenced (4 * g + i) s))

/-- Statuses of R386. -/
def memOK : Nat := 0
def memCORR : Nat := 1
def memUNCORR : Nat := 2
def memFENCED : Nat := 3
def memRANGE : Nat := 4
def memBADREQ : Nat := 5

/-- Whether a run of bytes lies, sector by sector, within extents (R385). -/
def inExtents (ext : List (Nat × Nat)) (a n : Nat) : Bool :=
  (List.range n).all (fun i => ext.any (fun e => decide (e.1 ≤ a + 32 * i ∧ a + 32 * i + 32 ≤ e.1 + e.2)))

/-- Extents recorded for a pitch (R385). -/
def pitchExtents (p : Nat) (s : State) : List (Nat × Nat) :=
  match slotOfPitch p s with
  | none => []
  | some n => (slotAt n s).extents

/-- SYS as the request was injected: a cluster router and a Stove force it to 0, and only a die agent's attachment injects 1 (R384). -/
def reqSys (m : MemReq) : Bool := m.sys && m.agent

/-- The beats of a request that fail parity are parity events of the controller, as their consumer (R327, R328). -/
def memParity (m : MemReq) (n : Nat) (s : State) : State :=
  foldRange m.bad.length (fun _ s => parityEventAt (pgStk n) (stkCluster n) s) s

/-- A controller counts the requests that it refuses with RANGE (R386, R392). -/
def memRefused (n st : Nat) (s : State) : State := if st = memRANGE then bump (pgStk n) 0x104 31 16 1 s else s

/-- The refusal of a request by its controller, in the order of R386, or none; a run that ends on a fenced stack is refused as one that begins
there (R388). -/
def memRefusal (m : MemReq) (most : Nat) (s : State) : Option Nat :=
  if m.count = 0 ∨ most < m.count ∨ m.rsv ∨ m.addr % 32 ≠ 0 then some memBADREQ
  else if m.addr / groupSize ≠ (m.addr + 32 * m.count - 1) / groupSize ∨ mapTop < m.addr + 32 * m.count then some memRANGE
  else if addrFenced m.addr s || addrFenced (m.addr + 32 * (m.count - 1)) s then some memFENCED
  else if !reqSys m ∧ !inExtents (pitchExtents m.pitch s) m.addr m.count then some memRANGE
  else none

/-- Answer a request: requester cluster, tag, status, uncorrectable sectors, data (R386). -/
def memAnswer (m : MemReq) (status : Nat) (bad : List Nat) (data : List Byte) (s : State) : State :=
  sayBytes .memRsp ([m.scl, m.tag, m.pitch, status] ++ bad) data s

/-- Count sectors of a stack: region code and die code (R680). -/
def countSect (n code dcode k : Nat) (s : State) : State :=
  let s := countRgn (stkRegion n) code k s
  if dcode = 0 then s else countDie dcode n k s

/-- Repair a pin that failed REPAIRTHR times within an hour (R380): mapped onto a redundant lane and recorded, or
STK_NOREPAIR. The number of redundant lanes is not stated: whether one is left is free until none is. -/
def pinRepair (n pc pin : Nat) (s : State) : State :=
  let k := stkAt n s
  let recent := (k.pins.filter (fun e => e.1 = pc ∧ e.2.1 = pin ∧ now s ≤ e.2.2 + hour)).length
  if recent < max 1 (rf (pgStk n) 0x100 11 8 s) then s
  else
    let (w, s) := takeFree s
    let s := updStk n (fun k => { k with pins := k.pins.filter (fun e => ¬ (e.1 = pc ∧ e.2.1 = pin)) }) s
    if k.spent.contains pc ∨ w % 2 = 0 then
      fire 75 (updStk n (fun k => { k with spent := pc :: k.spent.filter (· ≠ pc) }) s)
    else
      say .record [0, 0x380, n, pc, pin] (bump (pgStk n) 0x108 23 20 1
        (updStk n (fun k => { k with mapped := (pc, pin) :: k.mapped }) (logWritten s)))

/-- Whether the code miscorrects a sector: three or more symbols that it did not detect (R378). -/
def wrongSect (e : SectErr) : Bool := e.missed && decide (3 ≤ e.syms)

/-- Whether a sector is corrected, rightly or not (R378). -/
def fixedSect (e : SectErr) : Bool := decide (e.syms = 1) || wrongSect e

/-- Whether a sector is uncorrectable (R378). -/
def lostSect (e : SectErr) : Bool := decide (1 < e.syms) && !wrongSect e

/-- A sector's worth of free bytes. -/
def freeSector (s : State) : List Byte × State :=
  (List.range 8).foldl (fun (a : List Byte × State) _ => let (w, s) := takeFree a.2; (a.1 ++ leBytes 4 w, s)) ([], s)

/-- A sector found in error (R373, R378, R379, R394): one symbol is corrected, more are uncorrectable; a sector that the code miscorrects counts as
corrected, and what is written back is free. -/
def sectorError (n loc : Nat) (e : SectErr) (s : State) : State :=
  let s := if e.odecc = 0 then s else bump (pgStk n) 0x108 31 24 e.odecc s
  if e.syms = 0 then s
  else if fixedSect e then
    let s := countSect n 0x52 0 1 (bump (pgStk n) 0x108 11 0 1 s)
    if wrongSect e then let (bs, s) := freeSector s; locWrite n (loc / 32 * 32) bs s else s
  else
    let s := countSect n 0x53 0 1 (bump (pgStk n) 0x108 19 12 1 s)
    let s := wr (pgStk n) 0x110 (word ((e.pin % 64) * 2 ^ 9 + (e.pc % 32) * 2 ^ 4 + fld loc 35 32)) (wr (pgStk n) 0x10C (word loc) s)
    let s := writeRec { kind := 0x0A, detail := leBytes 1 0x0A ++ leBytes 1 n } s
    if e.pin < 32 then pinRepair n e.pc e.pin (updStk n (fun k => { k with pins := (e.pc, e.pin, now s) :: k.pins }) s) else s

/-- The error given for the sector at an address. -/
def errAt (errs : List SectErr) (a : Nat) : SectErr :=
  (errs.find? (fun e => e.addr = a)).getD { addr := a, syms := 0, pin := 0x3F, pc := 0 }

/-- Read n sectors from an address: data, uncorrectable sector numbers, whether any was corrected, and what the reads
record. The bytes of an uncorrectable sector are free. -/
def readSectors (a n : Nat) (errs : List SectErr) (s : State) : (List Byte × List Nat × Bool) × State :=
  (List.range n).foldl (fun (acc : (List Byte × List Nat × Bool) × State) i =>
    let ((data, bad, corr), s) := acc
    let ad := a + 32 * i
    let e := errAt errs ad
    match placeOf ad s with
    | none => ((data ++ List.replicate 32 0, bad, corr), s)
    | some (k, loc) =>
      let s := sectorError k loc e (countSect k 0x50 0xD0 1 s)
      if lostSect e then
        let (bs, s) := freeSector s
        ((data ++ bs, bad ++ [i], corr), s)
      else ((data ++ memRead ad 32 s, bad, corr || fixedSect e), s)) (([], [], false), s)

/-- MEMRD (R383–R387): a controller serves a read request and answers with its status; a request to an unmapped address
is answered RANGE where it is injected. A stack that is not READY and not fenced keeps the request waiting. -/
def execMemrd (m : MemReq) (errs : List SectErr) (s : State) : Host.Outcome State Fault Refusal :=
  match placeOf m.addr s with
  | none => .next (memAnswer m memRANGE [] [] s)
  | some (n, _) =>
    match memRefusal m 32 s with
    | some st => .next (memAnswer m st [] [] (memRefused n st (memParity m n s)))
    | none =>
      if !rb (pgStk n) 0x104 0 s then .next s
      else
        let ((data, bad, corr), s) := readSectors m.addr m.count errs (memParity m n s)
        .next (memAnswer m (if !bad.isEmpty then memUNCORR else if corr then memCORR else memOK) bad data s)

-- Mirrored writes (R533, R540, R552) ------------------------------------------------------------------------

/-- TWN_STAT.STATE (R554). -/
def twnState (s : State) : Nat := rf pgTwn 0x104 3 0 s

/-- Source base, mirror base and length in bytes (R533). -/
def twnSrc (s : State) : Nat := rf pgTwn 0x114 13 0 s * 2 ^ 26
def twnMir (s : State) : Nat := rf pgTwn 0x110 13 0 s * 2 ^ 26
def twnLen (s : State) : Nat := rf pgTwn 0x118 13 0 s * 2 ^ 26

/-- Whether the member mirrors: in SYNC, PAIRED and SUSPECT (R538, R539). -/
def mirrors (s : State) : Bool := decide (twnState s = 2 ∨ twnState s = 3 ∨ twnState s = 4)

/-- Send one MIRROR flit on RLP4: its SUB, its number of items and their bytes (R540). -/
def mirrorFlit (sub n : Nat) (items : List Byte) (s : State) : State :=
  countDie 0xA8 0 1 (sendFlit 4 (nearFlit ftMirror 0 (leBytes 1 sub ++ leBytes 1 n ++ leBytes 6 0 ++ items) s) s)

/-- Whether live writes are mirrored: PAIRED, and SUSPECT entered from it. In SYNC the copy itself, which leaves whole at
SYNC_COMPLETE, carries them (R552). -/
def mirrorsWrites (s : State) : Bool := decide (twnState s = 3 ∨ (twnState s = 4 ∧ s.twn.back = 3))

/-- Mirror a stack write that memory now holds: the sectors of it that lie in the source range (R540, R552). -/
def mirrorOut (a n : Nat) (s : State) : State :=
  let base := twnSrc s
  let top := base + twnLen s
  if !mirrorsWrites s then s
  else
    let lo := max (a / 32 * 32) base
    let hi := min ((a + n + 31) / 32 * 32) top
    if hi ≤ lo then s
    else foldRange ((hi - lo + 575) / 576) (fun i s =>
      let p := lo + 576 * i
      let k := min 576 (hi - p)
      mirrorFlit 2 1 (leBytes 5 p ++ leBytes 2 k ++ leBytes 17 0 ++ memRead p k s) s) s

/-- A write of stack memory by the device, mirrored where it lands in the source range (R540). -/
def stackWrite (a : Nat) (data : List Byte) (s : State) : State := mirrorOut a data.length (memWrite a data s)

/-- Write sectors from an address. -/
def writeSectors (a : Nat) (data : List Byte) (s : State) : State :=
  let s := foldRange ((data.length + 31) / 32) (fun i s =>
    match placeOf (a + 32 * i) s with
    | none => s
    | some (k, _) => countSect k 0x51 0xD1 1 s) s
  stackWrite a data s

/-- The word i of an image slot's input and output areas: INBASE_LO, INBASE_HI, OUTBASE_LO, OUTBASE_HI (R589). -/
def ioWord (slot i : Nat) (s : State) : Word := SMap.get 0 s.ioRegs (slot * 4 + i)

/-- Base and stride in bytes of an image slot's input (0) or output (1) area (R578). -/
def ioArea (slot out : Nat) (s : State) : Nat × Nat :=
  let lo := ioWord slot (2 * out) s
  let hi := ioWord slot (2 * out + 1) s
  (lo.toNat + 2 ^ 32 * getF hi 7 0, 64 * getF hi 31 16)

/-- Set the failure bits of the output records that a range of bytes touches (R579): keyed by slot, half and batch
slot. -/
def outputFailed (a n : Nat) (s : State) : State :=
  foldRange 16 (fun k s =>
    let x := slotAt k s
    let (base, stride) := ioArea k 1 s
    if stride = 0 ∨ x.bslots = 0 ∨ !x.st.holds then s
    else
      let hit := (List.range (2 * x.bslots)).filter (fun b => decide (base + b * stride < a + n ∧ a < base + (b + 1) * stride))
      { s with outFail := s.outFail ++ (hit.map (fun b => (k, b))).filter (fun e => !s.outFail.contains e) }) s

/-- MEMWR (R383–R387, R579): a controller serves a write request in arrival order and answers; a data beat with a
failing cause into an output record sets the record's failure bit, and so does one that fails its parity, whose data count as failed (R328, log 106). -/
def execMemwr (m : MemReq) (data : List Byte) (causes : List Nat) (s : State) : Host.Outcome State Fault Refusal :=
  match placeOf m.addr s with
  | none => .next (memAnswer m memRANGE [] [] s)
  | some (n, _) =>
    match memRefusal m 30 s with
    | some st => .next (memAnswer m st [] [] (memRefused n st (memParity m n s)))
    | none =>
      if !rb (pgStk n) 0x104 0 s then .next s
      else
        let fails := causes.zipIdx.map (fun (cs, i) => causeFails cs || m.bad.contains (i + 1))
        let s := fails.zipIdx.foldl (fun s (f, i) => if f then outputFailed (m.addr + 64 * i) 64 s else s) (memParity m n s)
        .next (memAnswer m memOK [] [] (writeSectors m.addr (slice data 0 (32 * m.count)) s))

/-- Sectors of a stack. -/
def stackSectors : Nat := stackSize / 32

/-- What the test port reads of a stack's temperature: its class, and whether it lies above 85 °C, where the refresh interval halves (R373, R392). -/
def stackTemp (n : Nat) (temp : Option (Nat × Bool)) (s : State) : State :=
  match temp with
  | none => s
  | some (c, hot) => wb (pgStk n) 0x104 3 hot (wf (pgStk n) 0x104 7 4 (min c 15) s)

/-- PATROL_READ (R381): the controller reads the next sector of its patrol, with the error found there, and counts a
complete patrol; `temp` is what the test port last read of the stack's temperature (log entry 119). -/
def execPatrolRead (n : Nat) (err : Option SectErr) (temp : Option (Nat × Bool)) (s : State) : Host.Outcome State Fault Refusal :=
  if !rb (pgStk n) 0x104 0 s then .next s
  else
    let s := stackTemp n temp s
    let k := stkAt n s
    let s := countSect n 0x50 0xD0 1 s
    let s := match err with
      | none => s
      | some e => sectorError n (32 * k.patrol) e s
    let p := (k.patrol + 1) % stackSectors
    let s := updStk n (fun k => { k with patrol := p }) s
    .next (if p = 0 then bump (pgStk n) 0x114 31 16 1 s else s)

-- Lines of the Pantry and of Stove SRAM as bytes (R226, R273) -------------------------------------------------

/-- Write 64 B lines of Stove SRAM from a line up; lines in `bad` are poisoned with code p, the others cleared
(R762). No block's identity or cause stands there until a block is delivered. -/
def sramLines (r line : Nat) (data : List Byte) (bad : List Nat) (p : Nat) (s : State) : State :=
  let x := rgnAt r s
  let sram := data.zipIdx.foldl (fun m (b, i) => SMap.set 0 m (64 * line + i) b) x.sram
  let lines := List.range ((data.length + 63) / 64)
  let poison := lines.foldl (fun m i => SMap.set 0 m (line + i) (if bad.contains i then p else 0)) x.poison
  let tags := lines.foldl (fun m i => SMap.set none m (line + i) none) x.tags
  setRgn r { x with sram := sram, poison := poison, tags := tags } s

/-- The blocks that lines from memory make in a Pantry, from a line up: the width is that of the allocation that holds them, which the block held
there before shows (R123); a P24 or P16B block takes two lines. Each with its line, its format, its bytes, and whether a sector was
uncorrectable. -/
def memBlocks (cl : Cluster) : Nat → List (List Byte × Bool) → List (Nat × BlkFmt × List Byte × Bool)
  | _, [] => []
  | l, [(x, bad)] => [(l, (match lineAt cl l with | .blk b => if b.fmt = .a4 then .a4 else .a8 | .tail _ => .a8), x, bad)]
  | l, (x, bad) :: (y, bad') :: rest =>
    match lineAt cl l with
    | .blk b =>
      if linesOf b = 2 then (l, b.fmt, x ++ y, bad || bad') :: memBlocks cl (l + 2) rest
      else (l, if b.fmt = .a4 then .a4 else .a8, x, bad) :: memBlocks cl (l + 1) ((y, bad') :: rest)
    | .tail _ => (l, .a8, x, bad) :: memBlocks cl (l + 1) ((y, bad') :: rest)

/-- Deliver one block from memory into the Pantry, with a failed verdict where a sector of it was uncorrectable (R122, R273). `id` is the plane tag,
stream ID and batch slot of the token whose record the bytes are (R35); of other bytes they are not stated and are free, as a failed cause is: `key`
names the transfer, and a transfer done again brings the same (R132). -/
def pantryFromMem (c : Nat) (key : List Nat) (id : Option (Nat × Nat × Nat)) (x : Nat × BlkFmt × List Byte × Bool) (s : State) : State :=
  let (line, fmt, bs, bad) := x
  let f (i : Nat) : Nat := (Config.freeAt (key ++ [line, i])).toNat
  let raw := blkFrom fmt bs
  let (pt, sid, bslot) := id.getD (f 0 % 2, f 1 % 2 ^ 20, f 2 % 1024)
  let b := { takeBlk raw with pt := pt, sid := sid, bslot := bslot, cause := if bad then 4 + f 3 % 5 else causePass }
  let s := setLine c line b (noteHdr (.clu c) [raw] s)
  let n := if twoLines b then 2 else 1
  updClu c (fun cl => { cl with alien := (List.range n).map (fun i => (line + i) % 512) ++ cl.alien }) s

/-- Deliver bytes from memory to a Pantry or to Stove SRAM (`dest` 16,384 + r), with the sectors that were
uncorrectable; `ids` tells whose token's record the bytes of each line are. -/
def deliverMem (dest line : Nat) (key : List Nat) (ids : List (Option (Nat × Nat × Nat))) (data : List Byte) (bad : List Nat) (s : State) : State :=
  if dest < 16384 then
    let lines := (List.range (data.length / 64)).map (fun i =>
      (slice data (64 * i) 64, bad.contains (2 * i) || bad.contains (2 * i + 1)))
    (memBlocks (cluAt dest s) line lines).foldl (fun s x => pantryFromMem dest key (nth none ids (x.1 - line)) x s) s
  else
    let r := dest - 16384
    let s := sramLines r line data (bad.map (· / 2)) 2 s
    let tag (o : Option (Nat × Nat × Nat)) : Option LineTag :=
      o.map (fun (pt, sid, bslot) => { cause := causePass, pt := pt, sid := sid, bslot := bslot })
    updRgn r (fun x => { x with tags := ids.zipIdx.foldl (fun m (o, i) => SMap.set none m (line + i) (tag o)) x.tags }) s

/-- MEMRSP (R386): a requester receives data with a status; a status with no access brings none, and a reserved one
counts as BADREQ. -/
def execMemrsp (dest : Nat) (line : Nat) (status : Nat) (data : List Byte) (bad : List Nat) (s : State) :
    Host.Outcome State Fault Refusal :=
  if 2 < status then .next s
  else
    let (w, s) := takeFree s
    .next (deliverMem dest line [2, w] [] data (if status = memUNCORR then bad else []) s)

end Sys2Proof.Machine
end

