-- ==== Sys2Proof/Machine/Streams.lean ====
section
/-! DEFINITION. The stream engine's shared operations (R389, R390, R572–R582): the stream table, input records, placing
submits, forming results and completions. -/

namespace Sys2Proof.Machine

/-- A stream. -/
def strmAt (sid : Nat) (s : State) : Strm := SMap.get Strm.free s.strms sid

/-- The 64 bytes of a stream table entry (R390). -/
def entBytes (e : StreamEnt) (sid : Nat) : List Byte :=
  if e.state = 0 then List.replicate 64 0
  else
    leBytes 3 sid ++ leBytes 1 e.state ++ leBytes 1 (b2n e.mirrored + 2 * b2n e.taken) ++ leBytes 1 e.slot ++
      leBytes 1 e.prio ++ leBytes 1 (e.fmtIn + 16 * e.fmtOut) ++ leBytes 1 e.int8exp ++ leBytes 7 0 ++
      leBytes 5 e.kvbase ++ leBytes 3 0 ++ leBytes 4 e.kvcap ++ leBytes 4 e.pos ++ leBytes 8 e.deadline ++
      leBytes 4 e.seqin ++ leBytes 4 e.seqout ++ leBytes 4 e.kvpos ++ leBytes 12 0

/-- Local address of the system area, of its stream table (R377, R389), and the entry of a stream. -/
def sysBase : Nat := 0x880000000
def entLoc (sid : Nat) : Nat := sysBase + 64 * sid

/-- Write a stream's entry to the copies of the stream table whose stack is not fenced (R388, R389). -/
def writeEntry (sid : Nat) (e : StreamEnt) (s : State) : State :=
  [9, 19].foldl (fun s n => if stkFenced n s then s else locWrite n (entLoc sid) (entBytes e sid) s) s

/-- Store a stream. A changed entry is written to the table, and a mirrored stream's entry is mirrored (R389, R540). -/
def setStrm (sid : Nat) (x : Strm) (s : State) : State :=
  let old := strmAt sid s
  let s := { s with strms := SMap.set Strm.free s.strms sid x }
  if old.ent = x.ent then s
  else
    let s := writeEntry sid x.ent s
    if (x.ent.mirrored || old.ent.mirrored) && mirrors s then mirrorFlit 1 1 (entBytes x.ent sid) s else s

/-- Change a stream. -/
def updStrm (sid : Nat) (f : Strm → Strm) (s : State) : State := setStrm sid (f (strmAt sid s)) s

/-- A stream whose entry is given up while batches may hold submits of it (R40, R572). -/
def Strm.gone (x : Strm) : Strm :=
  { Strm.free with old := x.old ++ x.placed.map (fun q => { slot := x.ent.slot, seq := q, fmtOut := x.ent.fmtOut, int8exp := x.ent.int8exp }) }

/-- A new stream with an ID whose earlier streams may still have submits in batches. -/
def Strm.opened (x : Strm) (e : StreamEnt) : Strm := { Strm.free with ent := e, old := x.old }

/-- The placed submit of an earlier stream that a slot's batch holds under a SEQ. -/
def Strm.oldAt (x : Strm) (slot seq : Nat) : Option OldToken := x.old.find? (fun t => decide (t.slot = slot ∧ t.seq = seq))

/-- A placed submit is answered. -/
def Strm.answered (x : Strm) (slot seq : Nat) : Strm :=
  if (x.oldAt slot seq).isSome then { x with old := x.old.filter (fun t => ¬ (t.slot = slot ∧ t.seq = seq)) }
  else { x with placed := x.placed.filter (· ≠ seq) }

/-- Submits queued in the device (R589). -/
def queuedNow (s : State) : Nat := sumN (s.strms.map (fun e => e.2.queue.length))

/-- Return credits of a class to the host (R564). -/
def grantBack (cls n : Nat) (s : State) : State :=
  { s with dz := { s.dz with back := SMap.upd 0 s.dz.back cls (· + n) } }

-- Results (R580–R582) -----------------------------------------------------------------------------------

/-- Entries of the result queue (R582). -/
def resultRoom : Nat := 131072

/-- The host tokens' "none" index (R578). -/
def noIndex : Nat := 0xFFFFFFFF

/-- A completion as a result. -/
def errorRes (sid seq status : Nat) : Res :=
  { sid := sid, seq := seq, op := 0, status := status, index := 0, elems := [], width := 0, exit := none, exited := false, kept := false,
    freed := false }

/-- The body of a result message (R580, R581). -/
def Res.body (r : Res) : List Byte :=
  if r.op = 0 then []
  else leBytes 4 r.index ++ leBytes 4 r.elems.length ++ r.elems.flatMap (fun v => leBytes r.width v)

/-- A message in its framing: header and body (R563). The CRED and CRC bytes are the link's and are 0 here. -/
def msgBytes (cls op status sid seq : Nat) (body : List Byte) : List Byte :=
  leBytes 1 cls ++ leBytes 1 op ++ leBytes 1 status ++ leBytes 1 0 ++ leBytes 4 body.length ++ leBytes 3 sid ++ leBytes 1 0 ++
    leBytes 4 seq ++ leBytes 16 0 ++ body

/-- A result as its message (R580). -/
def Res.bytes (r : Res) : List Byte := msgBytes 4 r.op r.status r.sid r.seq r.body

/-- Mirror a result, in consecutive flits (R540). -/
def mirrorResult (r : Res) (s : State) : State :=
  (chunks 600 r.bytes).foldl (fun s bs => mirrorFlit 5 1 bs s) s

/-- Form a result: counted, mirrored where its stream is, and queued; a full queue makes it an OVERFLOW completion kept
in the stream's entry (R544, R580–R582, R589). -/
def formResult (r : Res) (s : State) : State :=
  let full := decide (resultRoom ≤ (s.results.filter (fun x => !x.kept)).length)
  let r : Res := if full then { errorRes r.sid r.seq stOVERFLOW with exit := r.exit, exited := r.exited, kept := true, freed := r.freed } else r
  let r : Res := { r with freed := r.freed || decide ((strmAt r.sid s).ent.state = 0) }
  let s := if r.op = 0 then countDie 0x82 0 1 (bump pgStrm 0x12C 31 0 1 s) else s
  let s := if r.op = 0 ∧ r.status = stDEADLINE then countDie 0x84 0 1 (bump pgStrm 0x128 31 0 1 s) else s
  let s := if !r.freed && (strmAt r.sid s).ent.mirrored && mirrors s then mirrorResult r s else s
  { s with results := s.results ++ [r] }

/-- Complete a queued submit with an error status and return its credits (R564, R581). -/
def completeSubmit (sid status : Nat) (u : Submit) (s : State) : State :=
  let s := updStrm sid (fun x => { x with queue := x.queue.filter (fun v => v.seq ≠ u.seq) }) s
  formResult (errorRes sid u.seq status) (grantBack 3 u.slots s)

/-- Complete every queued submit of a stream with a status. -/
def completeQueue (sid status : Nat) (s : State) : State :=
  (strmAt sid s).queue.foldl (fun s u => completeSubmit sid status u s) s

/-- Complete a submit placed in a slot's batch with an error status (R581). -/
def completePlaced (slot sid seq status : Nat) (s : State) : State :=
  let old := ((strmAt sid s).oldAt slot seq).isSome
  formResult { errorRes sid seq status with freed := old } (updStrm sid (fun x => x.answered slot seq) s)

/-- Put a stream into ERROR with the status that ended it (R572, R581). -/
def endStream (sid status : Nat) (s : State) : State :=
  if (strmAt sid s).ent.state = 1 then
    completeQueue sid status (updStrm sid (fun x => { x with ent := { x.ent with state := 3, endStat := status } }) s)
  else s

-- Edge formats (R148, R150) --------------------------------------------------------------------------------

/-- The exact value of an element code in an edge format; none for NaN and infinity. INT8 counts units of the stream's
declared exponent. -/
def edgeVal (fmt i8 : Nat) (v : Nat) : Option Dy :=
  match fmt with
  | 0 => some ⟨sx 8 v, (i8 : Int) - 127⟩
  | 1 => e4m3Val v
  | 2 => e5m2Val v
  | 3 => bf16Val v
  | _ => fp32Val v

/-- Bytes of an element in an edge format. -/
def edgeWidth (fmt : Nat) : Nat := if fmt = 4 then 4 else if fmt = 3 then 2 else 1

/-- Elements of an edge format into A8 blocks of 32 (R148); INT8 mantissas are copied under the declared exponent, also where all are zero. -/
def edgeIn (fmt i8 : Nat) (vs : List Nat) : List Blk :=
  (chunks 32 vs).map (fun l =>
    if fmt = 0 then
      let man := l.map (sx 8)
      { fmt := .a8, exp := i8, zb := false, sat := false, ufl := false, nh := narrow man, man := man, cause := 0,
             pt := 0, sid := 0, bslot := 0 }
    else dysToA8 (l.map (fun v => (edgeVal fmt i8 v).getD ⟨0, 0⟩)))

/-- A block's elements as codes of an edge format (R148). -/
def edgeOut (fmt i8 : Nat) (b : Blk) : List Nat :=
  (List.range 32).map (fun i =>
    let d := blkVal b i
    match fmt with
    | 0 => tc 8 (clampI (-128) 127 (shiftRne d.m (d.e - ((i8 : Int) - 127))))
    | 1 => toE4m3 d
    | 2 => toE5m2 d
    | 3 => toBf16 d
    | _ => toFp32 d)

-- Placing submits (R576, R578) --------------------------------------------------------------------------------

/-- Address of the record of batch slot b in half h of a slot's input (0) or output (1) area (R578). -/
def recordAddr (slot out h b : Nat) (s : State) : Nat :=
  let (base, stride) := ioArea slot out s
  base + (h * (slotAt slot s).bslots + b) * stride

/-- The token in flight whose input record holds the byte at an address, with the plane tag of its batch (R35, R39, R578): plane tag, stream ID and
batch slot. -/
def tokenAt (slot a : Nat) (s : State) : Option (Nat × Nat × Nat) :=
  let x := slotAt slot s
  let (base, stride) := ioArea slot 0 s
  let i := (a - base) / stride
  if stride = 0 ∨ a < base ∨ 2 * x.bslots ≤ i then none
  else
    let here (b : Batch) : Option (Nat × Nat × Nat) :=
      if b.no % 2 = i / x.bslots then (b.tokens.find? (fun t => t.1 = i % x.bslots)).map (fun t => (b.plane, t.2.1, t.1)) else none
    (x.batches.reverse ++ (x.exiting.map (·.2)).reverse).findSome? here

/-- The 64 bytes of an input record's head, with its A8 blocks (R578). -/
def inputRecord (sid : Nat) (e : StreamEnt) (u : Submit) (index : Nat) : List Byte :=
  leBytes 3 sid ++ leBytes 1 (if u.op = 2 then 2 else 0) ++ leBytes 4 index ++ leBytes 4 e.pos ++ leBytes 4 0 ++
    leBytes 5 e.kvbase ++ leBytes 43 0 ++
    (if u.op = 2 then (edgeIn e.fmtIn e.int8exp (u.elems.map (·.toNat))).flatMap (fun b => slice (blkBytes b) 0 34) else [])

/-- The record of a batch slot that enters empty. -/
def emptyRecord : List Byte := leBytes 4 (2 ^ 24) ++ leBytes 60 0

/-- The submit of a stream that is eligible for a slot's next batch (R576). -/
def eligible (slot : Nat) (x : Strm) : Option Submit :=
  if x.ent.state = 1 ∧ x.ent.slot = slot then
    match x.queue with
    | [] => none
    | u :: _ => if u.op = 3 ∧ !x.placed.isEmpty then none else some u
  else none

/-- Whether submit (a, u) goes before (b, v): priority, deadline with 0 last, arrival (R576). -/
def goesFirst (a : StreamEnt) (u : Submit) (b : StreamEnt) (v : Submit) : Bool :=
  if a.prio ≠ b.prio then decide (b.prio < a.prio)
  else if u.deadline ≠ v.deadline then decide (u.deadline ≠ 0 ∧ (v.deadline = 0 ∨ u.deadline < v.deadline))
  else decide (u.arrival < v.arrival)

/-- The eligible submit that goes first. -/
def bestSubmit (slot : Nat) (s : State) : Option (Nat × Submit) :=
  let best := s.strms.foldl (fun (a : Option (Nat × StreamEnt × Submit)) (sid, x) =>
    match eligible slot x with
    | none => a
    | some u => match a with
      | none => some (sid, x.ent, u)
      | some (_, e, v) => if goesFirst x.ent u e v then some (sid, x.ent, u) else a) none
  best.map (fun (sid, _, u) => (sid, u))

/-- The token index that a submit enters with: a NEXT takes its stream's last token; where that result named none, the
index is not stated and is free (R574). -/
def submitIndex (x : Strm) (u : Submit) (s : State) : Nat × State :=
  if u.op ≠ 3 then (u.index, s)
  else match x.prev with
    | some t => (t, s)
    | none => let (w, s) := takeFree s; (w % 2 ^ 32, s)

/-- Place one submit in batch slot b of the half being filled (R564, R576, R578). -/
def placeSubmit (slot b sid : Nat) (u : Submit) (s : State) : State :=
  let x := strmAt sid s
  let img := slotAt slot s
  let (index, s) := submitIndex x u s
  let s := stackWrite (recordAddr slot 0 (img.entries % 2) b s) (inputRecord sid x.ent u index) s
  let s := setStrm sid { x with queue := x.queue.filter (fun v => v.seq ≠ u.seq), placed := x.placed ++ [u.seq],
                                ent := { x.ent with pos := x.ent.pos + 1 } } s
  let s := countDie 0x83 0 1 (grantBack 3 u.slots s)
  updSlot slot (fun y => { y with filling := y.filling ++ [(b, sid, u.seq)] }) s

/-- Fill the half that the next batch enters with (R576), a submit at a time; `fuel` bounds the submits looked at. A
submit whose stream is at its capacity is completed and never placed. -/
def fillLoop : Nat → Nat → State → State
  | 0, _, s => s
  | fuel + 1, slot, s =>
    let img := slotAt slot s
    if img.entries = 0 ∨ img.st ≠ .running ∨ img.bslots ≤ img.filling.length then s
    else match bestSubmit slot s with
      | none => s
      | some (sid, u) =>
        let e := (strmAt sid s).ent
        if e.kvcap ≤ e.pos then fillLoop fuel slot (completeSubmit sid stCAPACITY u s)
        else fillLoop fuel slot (placeSubmit slot img.filling.length sid u s)

/-- Fill what can be filled of a slot's next batch. -/
def fillNext (slot : Nat) (s : State) : State := fillLoop (queuedNow s) slot s

/-- A batch enters: the half filled so far is frozen, its unwritten records become empty, and the engine turns to the
other half (R434, R435, R576). -/
def enterBatch (slot step : Nat) (s : State) : State :=
  let x := slotAt slot s
  let h := x.entries % 2
  let s := (List.range x.bslots).foldl (fun s b =>
    if b < x.filling.length then s else stackWrite (recordAddr slot 0 h b s) emptyRecord s) s
  let bt : Batch := { no := x.entries, entry := step, plane := x.ptr, tokens := x.filling }
  let s := updSlot slot (fun x => { x with
    batches := x.batches ++ [bt], entries := x.entries + 1, filling := [],
    drain0 := x.drain0 + b2n (x.ptr == 0), drain1 := x.drain1 + b2n (x.ptr == 1) }) s
  fillNext slot s

/-- A batch leaves a plane: the plane's count falls and the step is recorded (R435). -/
def drainBatch (slot plane step : Nat) (s : State) : State :=
  updSlot slot (fun x =>
    if plane = 0 then { x with drain0 := x.drain0 - 1, last0 := some step }
    else { x with drain1 := x.drain1 - 1, last1 := some step }) s

/-- An EXIT word: the oldest batch that has not exited leaves (R435, R579). -/
def exitBatch (slot step : Nat) (s : State) : State :=
  match (slotAt slot s).batches with
  | [] => s
  | b :: bs => drainBatch slot b.plane step (updSlot slot (fun x => { x with batches := bs, exiting := x.exiting ++ [(step, b)] }) s)

-- Result formation (R579) --------------------------------------------------------------------------------------

/-- The status that a batch's token ends with, where it does not pass: TAINTED, RANGE, FAILED (R251, R512, R579). -/
def tokenStatus (slot : Nat) (b : Batch) (bslot : Nat) (s : State) : Nat :=
  let x := slotAt slot s
  if x.taints.contains (b.no, bslot) then stTAINTED
  else if x.marked.contains (b.no, bslot) then stRANGE
  else if s.outFail.contains (slot, (b.no % 2) * x.bslots + bslot) then
    if x.nonfin.contains (b.no, bslot) then stNONFINITE else stFAILED
  else stOK

/-- The result of one token from its output record (R578–R580). -/
def tokenResult (slot step : Nat) (b : Batch) (bslot sid seq : Nat) (s : State) : State :=
  let x := strmAt sid s
  let a := recordAddr slot 1 (b.no % 2) bslot s
  let head := memRead a 16 s
  let idx := leAt head 0 4
  let n := leAt head 4 4
  let kind := leAt head 8 1
  let st := tokenStatus slot b bslot s
  let st := if st = stOK ∧ (1 < kind ∨ n % 32 ≠ 0) then stFAILED else st
  let gone := x.oldAt slot seq
  let fmts := match gone with
    | some g => (g.fmtOut, g.int8exp)
    | none => (x.ent.fmtOut, x.ent.int8exp)
  let exit := if x.ent.mirrored && gone.isNone then some (slot, step) else none
  let old := gone.isSome || !x.placed.contains seq
  let last (p : Option Nat) (v : Bool) (s : State) : State := if old then s else updStrm sid (fun x => { x with prev := p, prevVec := v }) s
  let s := updStrm sid (fun x => x.answered slot seq) s
  if st ≠ stOK then formResult { errorRes sid seq st with exit := exit, exited := true, freed := old } (last none false s)
  else
    let size := if kind = 0 then 34 else 98
    let raw := (List.range (n / 32)).map (fun i => blkFrom (if kind = 0 then .a8 else .p24) (memRead (a + 16 + size * i) size s))
    let codes := raw.flatMap (fun b => edgeOut fmts.1 fmts.2 (takeBlk b))
    let s := noteHdr pgStrm raw s
    let s := last (if idx = noIndex then none else some idx) (decide (0 < n)) s
    formResult { sid := sid, seq := seq, op := if 0 < n then 2 else 1, status := 0, index := idx, elems := codes,
                 width := edgeWidth fmts.1, exit := exit, exited := true, kept := false, freed := old } s

/-- Whether a region of a slot has still to issue or to complete what its image does up to a step: a Stove operation or a transfer, whose failure
would fail a token's result (R34, R253, R580). -/
def rgnOpen (slot step : Nat) (s : State) : Bool :=
  (slotRegions (slotAt slot s)).any (fun r =>
    let g := rgnAt r s
    let p := SMap.get SeqPos.start g.seqs slot
    (decide ((SMap.get (0, 0) (slotAt slot s).rgns r).2 ≠ 0 ∧ p.step ≤ step) && !p.fin && !g.fenced) || g.jobs.any (fun j => decide (j.slot = slot ∧ j.step ≤ step)) ||
      g.xfers.any (fun t => decide (t.slot = slot ∧ t.step ≤ step)))

/-- RESULT_FORMATION (R34, R579): once the published floor passes an EXIT step and its regions have done what led up to it, the oldest exiting batch's output half is read,
its failure bits cleared, and one result formed for each placed submit; then submits that waited for them are placed. -/
def execResultFormation (slot : Nat) (s : State) : Host.Outcome State Fault Refusal :=
  let x := slotAt slot s
  match x.exiting with
  | [] => .next s
  | (step, b) :: rest =>
    if x.floor ≤ step ∨ rgnOpen slot step s ∨ inService s then .next s
    else
      let s := b.tokens.foldl (fun s (bs, sid, seq) => tokenResult slot step b bs sid seq s) s
      let h := b.no % 2
      let s := { s with outFail := s.outFail.filter (fun e => ¬ (e.1 = slot ∧ h * x.bslots ≤ e.2 ∧ e.2 < (h + 1) * x.bslots)) }
      let s := updSlot slot (fun x => { x with exiting := rest, taints := x.taints.filter (fun e => e.1 ≠ b.no),
                                               marked := x.marked.filter (fun e => e.1 ≠ b.no),
                                               nonfin := x.nonfin.filter (fun e => e.1 ≠ b.no) }) s
      .next (fillNext slot s)

end Sys2Proof.Machine
end

