-- ==== Sys2Proof/Machine/Stove.lean ====
section
/-! DEFINITION. The Stove (R245–R255, R762): its operations, their arithmetic and their completion. The layout of an
operation's parameters and the destinations of its outputs are not in the spec; the commands carry the parameters and
inputs, and completion reports the outputs. -/

namespace Sys2Proof.Machine

/-- What an operation computes: blocks, numbers, and the SAT and UFL of its outputs. -/
structure StvRes where
  blks : List Blk := []
  nums : List Nat := []
  sat  : Bool := false
  ufl  : Bool := false

/-- Charge of a Stove operation by pipe, in 0.1 µA (R611). -/
def stoveCharge (int8 : Bool) : Nat := if int8 then 42000000 else 11000000

/-- Number of a pipe among a region's Stove charges. -/
def pipeNo (int8 : Bool) : Nat := if int8 then 0 else 1

/-- The first operation of a Stove that has not started (R246). -/
def stoveNext (r : Nat) (s : State) : Option StvJob := (rgnAt r s).jobs.find? (fun j => !j.run)

/-- Whether an operation of a code may start: it is next in issue order, its image is the one named, and its pipe is
free (R246). -/
def stoveMay (k : StvCtx) (code : Nat) (int8 : Bool) (s : State) : Bool :=
  let x := rgnAt k.r s
  !x.fenced && !x.off && !(x.jobs.any (fun j => j.run && j.int8 == int8)) &&
    (match stoveNext k.r s with
     | none => false
     | some j => decide (j.code = code ∧ j.slot = k.slot))

/-- Pitch of the image whose Stove operation runs. -/
def stovePitch (k : StvCtx) (s : State) : Nat := (slotAt k.slot s).pitch

/-- An operation with the identity of its inputs, where the lines that it reads hold delivered blocks (R35). -/
def ownInputs (k : StvCtx) (s : State) : StvCtx :=
  match k.lines.findSome? (fun l => SMap.get none (rgnAt k.r s).tags l) with
  | none => k
  | some t => { k with pt := t.pt, sid := t.sid, bslot := t.bslot }

/-- Causes of an operation's inputs: those named, and those of the blocks delivered to the lines that it reads (R253). -/
def inputCauses (k : StvCtx) (s : State) : List Nat :=
  k.causes ++ k.lines.filterMap (fun l => (SMap.get none (rgnAt k.r s).tags l).map (·.cause))

/-- Whether a stack sector that an operation reads is uncorrectable (R253). -/
def stackBad (errs : List SectErr) : Bool := errs.any lostSect

/-- A byte of stack memory as an operation reads it: free in an uncorrectable or a miscorrected sector (R378). -/
def stackByte (errs : List SectErr) (a : Nat) (s : State) : Byte :=
  if 1 < (errAt errs (a / 32 * 32)).syms then BitVec.ofNat 8 (Config.freeAt [3, s.free, a]).toNat else memByte a s

/-- n bytes of stack memory as an operation reads them. -/
def stackBytes (errs : List SectErr) (a n : Nat) (s : State) : List Byte := (List.range n).map (fun i => stackByte errs (a + i) s)

/-- The stack sectors that an operation read in error (R378, R379). -/
def stackErrs (errs : List SectErr) (s : State) : State :=
  errs.foldl (fun s e => match placeOf e.addr s with
    | none => s
    | some (n, loc) => sectorError n loc e s) s

/-- The Stove SRAM words an operation read: corrected, uncorrectable (R226, R255, R666). -/
def stoveWords (k : StvCtx) (s : State) : State :=
  let s := if k.corr = 0 then s else bump (pgStv k.r) 0x104 31 0 k.corr s
  if k.bad.isEmpty then s
  else
    let s := fireRgn k.r 3 (bump (pgStv k.r) 0x100 31 16 k.bad.length s)
    writeRec { kind := 0x0A, cluster := stoveCluster k.r, pitch := stovePitch k s,
               detail := leBytes 1 0x23 ++ leBytes 1 k.r } s

/-- Report origin of a failure that the operation originates: NET for a line poisoned by a parity event, STATE for any
other poisoned line, an uncorrectable word or an uncorrectable stack sector (R253, R500, R762). -/
def stoveOrigin (k : StvCtx) (s : State) : Option Nat :=
  let x := rgnAt k.r s
  let p := k.lines.map (fun l => SMap.get 0 x.poison l)
  if p.contains 1 then some orgNet else if p.any (· ≠ 0) || !k.bad.isEmpty || stackBad k.errs then some orgState else none

/-- Start an operation: its result is formed, its charge is asked for, and its pipe is busy until it completes (R246,
R253, R611). Its outputs carry the identity of its inputs (R35), and a flush or a saturation on the way to them (R248). -/
def stoveStart (k : StvCtx) (code : Nat) (int8 : Bool) (res : StvRes) (s : State) : State :=
  if !stoveMay k code int8 s then s
  else
    let k := ownInputs k s
    let org := stoveOrigin k s
    let causes := inputCauses k s
    let s := stackErrs k.errs (stoveWords k s)
    let (w, s) := freeCause s
    let cause := causeFirst (causes ++ (match org with | none => [causePass] | some _ => [w]))
    let tag (b : Blk) : Blk := { b with cause := cause, pt := k.pt, sid := k.sid, bslot := k.bslot }
    let set (j : StvJob) : StvJob :=
      { j with run := true, int8 := int8, pt := k.pt, sid := k.sid, bslot := k.bslot, cause := cause, origin := org,
               blks := res.blks.map tag, nums := res.nums, sat := res.sat, ufl := res.ufl }
    let upd (l : List StvJob) : List StvJob :=
      l.takeWhile (fun j => j.run) ++ (match l.dropWhile (fun j => j.run) with | [] => [] | j :: js => set j :: js)
    let s := updRgn k.r (fun x => { x with jobs := upd x.jobs }) s
    askDamper k.r (.stove int8) (stoveCharge int8) (wb (pgStv k.r) 0x100 (if int8 then 0 else 1) true s)

/-- The step of the operation that would start next. -/
def stoveStep (k : StvCtx) (s : State) : Nat :=
  match stoveNext k.r s with
  | none => 0
  | some j => j.step

/-- A draw of a Stove site for an operation, keyed with the stream of its inputs (R127, R128). -/
def stoveDraw (site : Nat) (k : StvCtx) (elem : Nat) (s : State) : Nat :=
  draw16 site k.r (ownInputs k s).sid (stoveStep k s) elem

/-- An A8 element entering the BF16 pipe: a magnitude below 2^−126 enters as zero (R248), with whether that happened. -/
def enter (d : Dy) : Dy × Bool :=
  if d.m ≠ 0 ∧ !dyLe ⟨1, -126⟩ ⟨(d.m.natAbs : Int), d.e⟩ then (⟨0, 0⟩, true) else (d, false)

/-- Values into A8 blocks of 32 by the DYN rule, each element rounded by its draw or to nearest (R144, R247). -/
def toA8s (ds : List Dy) (sr : Nat → Option Nat) : List Blk :=
  (chunks 32 ds).zipIdx.map (fun (l, j) =>
    let (ws, e) := common (l ++ List.replicate (32 - l.length) ⟨0, 0⟩)
    toA false none ws e (fun i => sr (32 * j + i)))

/-- Values into one P24 block: the smallest exponent at which every rounded mantissa fits (R133, R136). -/
def toP24 (ds : List Dy) (sr : Nat → Option Nat) : Blk :=
  let (ws, e) := common (ds ++ List.replicate (32 - ds.length) ⟨0, 0⟩)
  let at_ (E : Nat) : List Int := ws.zipIdx.map (fun (w, i) => shiftBy (sr i) w (e + 127 - (E : Int)))
  let found := firstExp 0 (fun E => (at_ E).all (fun M => decide (-p24Max ≤ M ∧ M ≤ p24Max)))
  let E := found.getD 255
  let (ms, _) := clampAll (-p24Max) p24Max (at_ E)
  let ufl := (ms.zip ws).any (fun (M, w) => decide (M = 0 ∧ w ≠ 0))
  if ms.all (· == 0) then zeroBlk .p24 ufl 0 0 0 0
  else { fmt := .p24, exp := E, zb := false, sat := found.isNone, ufl := ufl, nh := false, man := ms, cause := 0, pt := 0,
         sid := 0, bslot := 0 }

/-- Values into P24 blocks of 32. -/
def toP24s (ds : List Dy) (sr : Nat → Option Nat) : List Blk :=
  (chunks 32 ds).zipIdx.map (fun (l, j) => toP24 l (fun i => sr (32 * j + i)))

/-- The elements of blocks in order, entering the BF16 pipe. -/
def blkElems (bs : List Blk) : List (Dy × Bool) := bs.flatMap (fun b => (List.range 32).map (fun i => enter (blkVal b i)))

/-- An FP32 value of an element. -/
def fpOfDy (d : Dy) : Fp := { v := d, sat := false }

/-- Whether any of some values saturated. -/
def anySat (l : List Fp) : Bool := l.any (·.sat)

/-- A block that leaves an operation with the flags of what happened on the way to it (R121, R122, R248). -/
def flagBlk (sat ufl : Bool) (b : Blk) : Blk := { b with sat := !isZero b && (b.sat || sat), ufl := b.ufl || ufl }

/-- Flag the blocks of 32 elements: a saturated element its block; a flushed input, on which every output may rest, all of them. -/
def flagBlks (sats : List Bool) (ufl : Bool) (bs : List Blk) : List Blk :=
  bs.zipIdx.map (fun (b, j) => flagBlk (((sats.drop (32 * j)).take 32).any id) ufl b)

/-- A vector result as A8 blocks or as BF16 numbers. -/
def vecOut (a8 : Bool) (l : List Fp) (ufl : Bool) : StvRes :=
  if a8 then { blks := flagBlks (l.map (·.sat)) ufl (toA8s (l.map (·.v)) (fun _ => none)), sat := anySat l, ufl := ufl }
  else { nums := l.map fpBf16, sat := anySat l, ufl := ufl }

/-- NOP (R245): the operation next in issue order ends with no effect. -/
def execStvNop (k : StvCtx) (s : State) : Host.Outcome State Fault Refusal :=
  let x := rgnAt k.r s
  match stoveNext k.r s with
  | none => .next s
  | some j =>
    if j.code = 0 ∧ j.slot = k.slot ∧ !x.fenced ∧ !x.off then
      .next (countRgn k.r 0x38 1 (setRgn k.r { x with jobs := x.jobs.erase j } s))
    else .next s

/-- One row of a GATHER: blocks of 34 bytes, or BF16 elements, from stack memory (R251). -/
def gatherRow (errs : List SectErr) (base rowLen i : Nat) (bf16 : Bool) (s : State) : List Blk × List Nat :=
  if bf16 then ([], (List.range rowLen).map (fun j => leNat (stackBytes errs (base + i * (2 * rowLen) + 2 * j) 2 s)))
  else
    let n := (rowLen + 31) / 32
    ((List.range n).map (fun j => blkFrom .a8 (stackBytes errs (base + i * (34 * n) + 34 * j) 34 s)), [])

/-- GATHER (R251, R252): rows by index; an index at or beyond the row count gives zero blocks, and a RANGE message for
each batch slot that met one. `idx` lists batch slot and index. The Stove's page records blocks with an inconsistent header (R122). -/
def execStvGather (k : StvCtx) (base rows rowLen : Nat) (bf16 : Bool) (idx : List (Nat × Nat)) (s : State) :
    Host.Outcome State Fault Refusal :=
  if !stoveMay k 1 false s then .next s
  else
    let zero : List Blk × List Nat :=
      if bf16 then ([], List.replicate rowLen 0) else (List.replicate ((rowLen + 31) / 32) (zeroBlk .a8 false 0 0 0 0), [])
    let got := idx.map (fun (_, i) => if i < rows then gatherRow k.errs base rowLen i bf16 s else zero)
    let out := (idx.filter (fun (_, i) => rows ≤ i)).map (·.1)
    let step := stoveStep k s
    let s := out.eraseDups.foldl (fun s b =>
      say .guyline [0xD, 0, stoveCluster k.r, 2, step % 2 ^ 32, b * 2 ^ 20 + stovePitch k s * 2 ^ 16 + step / 2 ^ 32 % 2 ^ 16] s) s
    let blks := got.flatMap (·.1)
    .next (stoveStart k 1 false { blks := blks.map takeBlk, nums := got.flatMap (·.2) } (noteHdr (pgStv k.r) blks s))

/-- The bytes of an A8 block with its header (R120, R121). -/
def a8Bytes (b : Blk) : List Byte :=
  leBytes 1 b.exp ++ leBytes 1 (flagsByte b) ++ (List.range 32).flatMap (fun i => leBytes 1 (tc 8 (manAt b i)))

/-- The elements of a key and a value, P24 or BF16, which the pipe takes exactly (R248). -/
def kvElems (key value : List Word) : List Dy := (key ++ value).map (fun w => (fpOf w).v)

/-- The A8 blocks of a key and a value, rounded by site 0x5 where sr is set (R245). -/
def kvBlks (k : StvCtx) (sr : Bool) (key value : List Word) (s : State) : List Blk :=
  let v := kvElems key value
  let draw (i : Nat) : Option Nat := if sr then some (stoveDraw 5 k i s) else none
  toA8s (v.take key.length) draw ++ toA8s (v.drop key.length) (fun i => draw (key.length + i))

/-- The bytes that KVAPPEND stores. -/
def kvBytes (k : StvCtx) (sr : Bool) (key value : List Word) (s : State) : List Byte := (kvBlks k sr key value s).flatMap a8Bytes

/-- Where KVAPPEND writes: the position's place from the base of the stream's cache (R251, R390). -/
def kvPlace (k : StvCtx) (pos stride : Nat) (s : State) : Nat := (strmAt (ownInputs k s).sid s).ent.kvbase + pos * stride

/-- KVAPPEND (R245, R251): key and value vectors become A8 blocks and are written at the position's place in the stream's cache; the write is
mirrored as every stack write is (R540). -/
def execStvKvappend (k : StvCtx) (pos stride : Nat) (sr : Bool) (key value : List Word) (s : State) :
    Host.Outcome State Fault Refusal :=
  if !stoveMay k 2 false s then .next s
  else
    let blks := kvBlks k sr key value s
    let res : StvRes := { blks := blks, sat := blks.any (·.sat), ufl := blks.any (·.ufl) }
    .next (stoveStart k 2 false res (stackWrite (kvPlace k pos stride s) (kvBytes k sr key value s) s))

/-- The product of two A8 blocks: an exact block total, scaled by both exponents into FP32 (R248). -/
def dotBlk (a b : Blk) : Fp :=
  fpR ⟨sumI ((List.range 32).map (fun i => manAt a i * manAt b i)), (a.exp : Int) + b.exp - 254⟩ false

/-- SCORE (R245, R247, R248): for each cached position the products of query and key, summed in block order, times the
scale. -/
def execStvScore (k : StvCtx) (scale : Nat) (query : List Blk) (keys : List (List Blk)) (s : State) :
    Host.Outcome State Fault Refusal :=
  let sc : Fp := fpOfDy ((bf16Val scale).getD ⟨0, 0⟩)
  let sc := keys.map (fun ks => fpMul (fpSum ((query.zip ks).map (fun (a, b) => dotBlk (takeBlk a) (takeBlk b)))) sc)
  .next (stoveStart k 3 true { nums := sc.map fpCode, sat := anySat sc } s)

/-- Weights of a softmax over some scores (R250), for the selected ones of `l` by index: the sum runs in element order (R247). -/
def softmaxOf (l : List (Nat × Fp)) : List (Nat × Fp) :=
  let m := fpMax (l.map (·.2))
  let es := l.map (fun x => (x.1, fpExp (fpSub x.2 m)))
  let t := fpSum (es.map (·.2))
  es.map (fun e => (e.1, fpDiv e.2 t))

/-- Values with their indices. -/
def withIdx (l : List Fp) : List (Nat × Fp) := l.zipIdx.map (fun (x, i) => (i, x))

/-- Weights of a softmax over a vector of scores. -/
def softmax (l : List Fp) : List Fp := (softmaxOf (withIdx l)).map (·.2)

/-- SOFTMAX (R245): positions beyond a causal limit take weight 0. -/
def execStvSoftmax (k : StvCtx) (scores : List Word) (causal : Option Nat) (s : State) : Host.Outcome State Fault Refusal :=
  let n := match causal with
    | none => scores.length
    | some c => min c scores.length
  let ws := softmax ((scores.take n).map fpOf)
  .next (stoveStart k 4 false { nums := ws.map fpCode ++ List.replicate (scores.length - n) 0, sat := anySat ws } s)

/-- WSUM (R245, R247): weighted sums of cached values in position order; the output descriptor of the attachment
cluster makes A8 of the P24 sums. -/
def execStvWsum (k : StvCtx) (desc : Nat) (weights : List Word) (values : List (List Blk)) (s : State) :
    Host.Outcome State Fault Refusal :=
  let c := stoveCluster k.r
  let vs := values.map blkElems
  let n := vs.foldl (fun a l => max a l.length) 0
  let sums := (List.range n).map (fun i => (weights.zip vs).foldl (fun a (w, l) =>
    fpFma (fpOf w) (fpOfDy (nth (⟨0, 0⟩, false) l i).1) a) fpZero)
  let ufl := vs.any (fun l => l.any (·.2))
  let p24 := toP24s (sums.map (·.v)) (fun _ => none)
  let d := descFor c (desc % 4) (wideFor c (desc % 4) s) s
  let outs := if d.owidth = 0 then p24 else p24.map (fun b => requant d (curveOf c d.curve s) b (fun _ => none))
  .next (stoveStart k 5 false { blks := flagBlks (sums.map (·.sat)) ufl outs, sat := anySat sums, ufl := ufl } s)

/-- NORM (R245): RMS or mean-and-variance normalisation with gain and bias. -/
def execStvNorm (k : StvCtx) (rms : Bool) (eps : Word) (a8 : Bool) (xs gain bias : List Word) (s : State) :
    Host.Outcome State Fault Refusal :=
  let l := xs.map fpOf
  let n := fpOfDy ⟨(l.length : Int), 0⟩
  let mean := if rms then fpZero else fpDiv (fpSum l) n
  let ds := l.map (fun x => fpSub x mean)
  let var := fpDiv (ds.foldl (fun a d => fpFma d d a) fpZero) n
  let root := fpSqrt (fpAdd var (fpOf eps))
  let ys := ds.zipIdx.map (fun (d, i) => fpFma (fpDiv d root) (fpOf (nth 0 gain i)) (fpOf (nth 0 bias i)))
  .next (stoveStart k 6 false (vecOut a8 ys false) s)

/-- ROPE (R245): each pair of neighbouring elements turned by its angle, given as cosine and sine. -/
def execStvRope (k : StvCtx) (a8 : Bool) (xs : List Word) (angles : List (Word × Word)) (s : State) :
    Host.Outcome State Fault Refusal :=
  let at_ (i : Nat) : Fp := fpOf (nth 0 xs i)
  let neg (a : Fp) : Fp := { a with v := dyNeg a.v }
  let ys := (List.range xs.length).map (fun i =>
    let (c, sn) := nth (0, 0) angles (i / 2)
    if i % 2 = 0 then fpFma (at_ i) (fpOf c) (neg (fpMul (at_ (i + 1)) (fpOf sn)))
    else fpFma (at_ (i - 1)) (fpOf sn) (fpMul (at_ i) (fpOf c)))
  .next (stoveStart k 7 false (vecOut a8 ys false) s)

/-- Insert an index into a list that falls by value, after equal values: ties keep the lower index first. -/
def insDesc (x : Nat × Fp) : List (Nat × Fp) → List (Nat × Fp)
  | [] => [x]
  | y :: ys => if fpLe x.2 y.2 then y :: insDesc x ys else x :: y :: ys

/-- Indices with their values, by falling value, ties to the lower index. -/
def sortDesc (l : List (Nat × Fp)) : List (Nat × Fp) := l.foldl (fun a x => insDesc x a) []

/-- TOPK (R250): the indices of the n largest logits in falling order, and gates by a softmax over them alone, whose sum runs in the order of
the logits (R247). -/
def execStvTopk (k : StvCtx) (n : Nat) (logits : List Word) (s : State) : Host.Outcome State Fault Refusal :=
  let all := withIdx (logits.map fpOf)
  let sel := (sortDesc all).take n
  let ws := softmaxOf (all.filter (fun x => sel.any (fun y => y.1 = x.1)))
  let gates := sel.map (fun x => ((ws.find? (fun w => w.1 = x.1)).map (·.2)).getD fpZero)
  .next (stoveStart k 8 false { nums := sel.map (·.1) ++ gates.map fpBf16, sat := anySat gates } s)

/-- The shortest prefix whose sum reaches a bound. -/
def prefixTo (bound : Fp) : Fp → List (Nat × Fp) → List (Nat × Fp)
  | _, [] => []
  | a, x :: xs => if fpLe bound (fpAdd a x.2) then [x] else x :: prefixTo bound (fpAdd a x.2) xs

/-- The token of R249 from its kept weights in rising index order, and the draw. -/
def pickToken (keep : List (Nat × Fp)) (draw : Nat) : Nat :=
  let c := fpSum (keep.map (·.2))
  let t := fpR (dyMul c.v ⟨(2 * draw + 1 : Nat), -33⟩) false
  let t := if fpLe c t then fpOf (word (fpCode c - 1)) else t
  let rec go : Fp → List (Nat × Fp) → Nat
    | _, [] => 0
    | a, x :: xs => let cum := fpAdd a x.2
                    if fpLe cum t then go cum xs else x.1
  go fpZero keep

/-- SAMPLE (R249): one token index by the counter-based draw. -/
def sampleToken (invtemp topk topp : Nat) (logits : List Fp) (draw : Nat) : Nat :=
  let m := fpMax logits
  let it : Fp := fpOfDy ((bf16Val invtemp).getD ⟨0, 0⟩)
  let ws := withIdx (logits.map (fun l => fpExp (fpMul (fpSub l m) it)))
  let desc := sortDesc ws
  let keep := if topk = 0 then desc else desc.take topk
  let total := fpSum ((ws.filter (fun w => keep.any (fun y => y.1 = w.1))).map (·.2))
  let keep := if topp = 0 then keep else prefixTo (fpMul (fpOfDy ⟨(topp : Int), -16⟩) total) fpZero keep
  pickToken (ws.filter (fun w => keep.any (fun y => y.1 = w.1))) draw

/-- SAMPLE (R249): key site 0x7, element index 0. -/
def execStvSample (k : StvCtx) (invtemp topk topp : Nat) (logits : List Word) (s : State) : Host.Outcome State Fault Refusal :=
  let draw := genDraw (genKey 7 k.r (ownInputs k s).sid) (genCtr (stoveStep k s) 0)
  .next (stoveStart k 9 false { nums := [sampleToken invtemp topk topp (logits.map fpOf) draw] } s)

/-- RESADD (R245): the exact sum of two vectors into P24 or A8, rounded by site 0x4 where sr is set. -/
def execStvResadd (k : StvCtx) (sr a8 : Bool) (xs ys : List Word) (s : State) : Host.Outcome State Fault Refusal :=
  let sum := (List.range xs.length).map (fun i => dyAdd (fpOf (nth 0 xs i)).v (fpOf (nth 0 ys i)).v)
  let draw (i : Nat) : Option Nat := if sr then some (stoveDraw 4 k i s) else none
  let outs := if a8 then toA8s sum draw else toP24s sum draw
  .next (stoveStart k 0xA false { blks := outs, sat := outs.any (·.sat), ufl := outs.any (·.ufl) } s)

/-- ELTWISE (R245): sums or products element by element, in FP32; `a8` marks vectors of A8 elements, which enter as R248 says. -/
def execStvEltwise (k : StvCtx) (mul a8 : Bool) (xs ys : List Word) (s : State) : Host.Outcome State Fault Refusal :=
  let into (w : Word) : Dy × Bool := if a8 then enter (fpOf w).v else ((fpOf w).v, false)
  let ex := xs.map into
  let ey := ys.map into
  let outs := (ex.zip ey).map (fun (a, b) => if mul then fpMul (fpOfDy a.1) (fpOfDy b.1) else fpAdd (fpOfDy a.1) (fpOfDy b.1))
  .next (stoveStart k 0xB false { nums := outs.map fpCode, sat := anySat outs, ufl := (ex ++ ey).any (·.2) } s)

/-- Drop the Stove operations and transfers of a slot from step j on (R307, R503): a running one frees its pipe and gives its charge back. -/
def dropJobs (n j r : Nat) (s : State) : State :=
  let x := rgnAt r s
  let pipes := ((x.jobs.filter (fun y => y.slot = n ∧ j ≤ y.step)).filter (·.run)).map (·.int8)
  let mine (a : DReq) : Bool := pipes.any (fun i => a.who == .stove i)
  let back := ((x.asks.filter mine).map (·.got)) ++ pipes.map (fun i => SMap.get 0 x.stvHold (pipeNo i))
  let s := pipes.foldl (fun s i => wb (pgStv r) 0x100 (if i then 0 else 1) false s) s
  let s := setRgn r { x with
    jobs := x.jobs.filter (fun y => ¬ (y.slot = n ∧ j ≤ y.step)), xfers := x.xfers.filter (fun t => ¬ (t.slot = n ∧ j ≤ t.step)),
    asks := x.asks.filter (fun a => !mine a),
    stvHold := pipes.foldl (fun m i => SMap.set 0 m (pipeNo i) 0) x.stvHold } s
  back.foldl (fun s q => release r q s) s

/-- STOVE_OP_COMPLETE (R253, R272): the running operation of a pipe, its charge granted, delivers its outputs with their
verdict, sends a token to K6 of every cluster that received them, and gives its charge back. `dests` are those clusters, as the descriptor names
them. -/
def execStoveOpComplete (r : Nat) (int8 : Bool) (dests : List Nat) (s : State) : Host.Outcome State Fault Refusal :=
  let x := rgnAt r s
  match x.jobs.find? (fun j => j.run && j.int8 == int8) with
  | none => .next s
  | some j =>
    let q := SMap.get 0 x.stvHold (pipeNo int8)
    if q = 0 then .next s
    else
      let att := stoveCluster r
      let pitch := (slotAt j.slot s).pitch
      let x := { x with jobs := x.jobs.erase j, stvHold := SMap.set 0 x.stvHold (pipeNo int8) 0 }
      let s := countRgn r 0x38 1 (wb (pgStv r) 0x100 (if int8 then 0 else 1) false (release r q (setRgn r x s)))
      let s := emit { kind := .portage, args := [att, r, j.slot, j.step, j.desc, j.cause, b2n j.sat, b2n j.ufl] ++ j.nums,
                      blks := j.blks, bytes := [] } s
      let s := if j.tok then dests.foldl (fun s d => sendTokenTo att d 6 pitch j.step s) s else s
      if causeFails j.cause then
        let s := fireRgn r 14 (bump (pgStv r) 0x100 15 8 1 s)
        .next (match j.origin with
          | none => s
          | some o => reportOf pitch att j.step o 0 0x7F s)
      else .next s

end Sys2Proof.Machine
end

