-- ==== Sys2Proof/Machine/Seq.lean ====
section
/-! DEFINITION. Step words and their sequencers (R258–R283), elastic advance (R284–R293), rollback at a cluster
(R501–R506), the replay ring's contents (R229–R232) and stack transfers (R273). -/

namespace Sys2Proof.Machine

-- The image's clusters and words ------------------------------------------------------------------------

/-- Whether a slot executes steps: RUNNING or DRAINING. -/
def SlotSt.runs (x : SlotSt) : Bool := decide (x = .running ∨ x = .draining)

/-- Whether a slot's image stops at its next step boundaries: ABORTING, or DRAINING with no token in a batch (R307). -/
def Slot.stopping (x : Slot) : Bool :=
  match x.st with
  | .aborting => true
  | .draining => x.batches.all (fun b => b.tokens.isEmpty) && x.exiting.all (fun b => b.2.tokens.isEmpty)
  | _ => false

/-- Whether a sequencer of a slot may move on at all: it runs, and neither SERVICE nor a trip holds it (R609, R623). -/
def seqRuns (x : Slot) (s : State) : Bool := x.st.runs && !x.stopping && !inService s && !tripped s

/-- Word w of a slot's die stream (R275), and of its region r's stream (R271), as stack memory holds them. -/
def dieWord (x : Slot) (w : Nat) (s : State) : Nat := leNat (memRead (x.dieWords.1 + 32 * w) 32 s)
def rgnWord (x : Slot) (r w : Nat) (s : State) : Nat := leNat (memRead ((SMap.get (0, 0) x.rgns r).1 + 16 * w) 16 s)

/-- Layers that a die word marks (R275). -/
def markLayers (w : Nat) : List Nat :=
  (List.range (fld w 47 40)).map (· + fld w 39 32) ++ (List.range (fld w 63 56)).map (· + fld w 55 48)

/-- The recipe select of a layer (R157). -/
def recipeSel (layer : Nat) (s : State) : Nat :=
  rf pgAdm (0x400 + 4 * (layer / 16 % 16)) (2 * (layer % 16) + 1) (2 * (layer % 16)) s

/-- The SLOT item of a slot (R540). -/
def slotItem (n : Nat) (x : Slot) : List Byte :=
  leBytes 1 n ++ leBytes 1 x.st.code ++ leBytes 1 x.ptr ++ leBytes 5 0 ++ slice x.digest 0 64 ++ slice x.model0 0 16 ++
    slice x.model1 0 16 ++ leBytes 6 x.floor

/-- Mirror the SLOT item of a slot with feature MIRROR (R540). -/
def mirrorSlotItem (n : Nat) (s : State) : State :=
  let x := slotAt n s
  if bit x.feat 3 && mirrors s then mirrorFlit 3 1 (slotItem n x) s else s

-- Die sequencer (R275–R283) ------------------------------------------------------------------------------------

/-- Issue a message of the down lane to every cluster of a slot's pitch: each takes it in its turn. `key` tells it from the others. -/
def issueDown (x : Slot) (key args : List Nat) (s : State) : State :=
  say .guyline args ((slotClusters x).foldl (fun s c => updClu c (fun cl => { cl with down := cl.down ++ [key] }) s) s)

/-- Send the gate message of a step to the pitch, and keep its samples for a replay (R277, R503). -/
def sendGate (n k : Nat) (samples : List (Nat × Nat)) (s : State) : State :=
  let x := slotAt n s
  let s := setSlot n { x with gateLog := (k, samples) :: x.gateLog.filter (fun g => decide (g.1 ≠ k ∧ k ≤ g.1 + 192)) } s
  issueDown x [3, k] (3 :: 2 :: x.pitch :: k :: samples.flatMap (fun e => [e.1, e.2])) s

/-- Marks and epoch gate of step k (R276, R277). A step executed again resends its message at once (R503). -/
def issueGate (n k w : Nat) (again : Bool) (s : State) : State :=
  let layers := markLayers w
  let samples := layers.map (fun l => (l, recipeSel l s))
  let eg := fld w 67 66
  if again then
    match (slotAt n s).gateLog.find? (fun g => g.1 = k) with
    | some g => sendGate n k g.2 s
    | none => s
  else match eg with
    | 0 => if layers.isEmpty then s else sendGate n k samples s
    | 1 => updSlot n (fun x => { x with gates := x.gates ++ [(k, none, samples)] }) s
    | _ =>
      let m := 2 ^ fld w 73 68
      updSlot n (fun x => { x with gates := x.gates ++ [(k, some ((now s + m - 1) / m * m), samples)] }) s

/-- Whether MCOMMIT words of a slot wait for acknowledgements now: the pair is PAIRED or SUSPECT (R539, R542). -/
def commitsWait (s : State) : Bool := decide (twnState s = 3 ∨ twnState s = 4)

/-- COMMITs of a slot not yet acknowledged (R542). -/
def commitsOpen (n : Nat) (s : State) : Nat :=
  (slotAt n s).commits.length + (s.twn.waits.filter (fun w => w.2.1 = n)).length

/-- Entry, exit, commit mark and loader control of step k (R279–R281). A step executed again has issued them already
(R505). -/
def issueMarks (n k w : Nat) (s : State) : State :=
  let s := if bit w 64 ∧ (slotAt n s).st = .running then enterBatch n k s else s
  let s := if bit w 65 then exitBatch n k s else s
  let s := if bit w 74 && commitsWait s then updSlot n (fun x => { x with commits := x.commits ++ [k] }) s else s
  match fld w 76 75 with
  | 1 => updSlot n (fun x => { x with pgmStop := true }) s
  | 2 => updSlot n (fun x => { x with pgmStop := false }) s
  | _ => s

/-- The valid link actions of a die word: port and descriptor (R275, R282). -/
def linkActions (w : Nat) : List (Nat × Nat) :=
  ((List.range 4).filter (fun i => bit w (94 + 16 * i))).map (fun i => (fld w (83 + 16 * i) (80 + 16 * i), fld w (93 + 16 * i) (84 + 16 * i)))

/-- Link actions pending at a port (R468). -/
def portPending (p : Nat) (s : State) : Nat :=
  sumN ((List.range 16).map (fun n => ((slotAt n s).links.filter (fun l => l.1 = p)).length)) +
    (SMap.get Port.empty s.ports p).held.length

/-- Whether the die sequencer may reach its next word (R283, R468, R542): the last word's gate has left, slack allows, the
queue of each port it names has room, and fewer than four COMMITs are open at an MCOMMIT word. -/
def dieMay (n : Nat) (s : State) : Bool :=
  let x := slotAt n s
  seqRuns x s && !x.die.fin && decide (x.die.step < x.floor + x.slack) && x.gates.isEmpty &&
    (linkActions (dieWord x x.die.w s)).all (fun l => decide (portPending l.1 s < 64)) &&
    !(bit (dieWord x x.die.w s) 74 && commitsWait s && decide (4 ≤ commitsOpen n s ∧ x.peak ≤ x.die.step))

/-- DIE_WORD_REACH (R283): the die sequencer reaches its next word and issues it; a step executed again issues its gate
message, and under early egress its link actions (R503, R505). -/
def execDieWordReach (slot : Nat) (s : State) : Host.Outcome State Fault Refusal :=
  if !dieMay slot s then .next s
  else
    let x := slotAt slot s
    let k := x.die.step
    let w := dieWord x x.die.w s
    let again := decide (k < x.peak)
    let s := issueGate slot k w again s
    let s := if again then s else issueMarks slot k w s
    let s := if again && !x.early then s
      else updSlot slot (fun x => { x with links := x.links ++ (linkActions w).map (fun (p, d) => (p, d, k)) }) s
    .next (updSlot slot (fun y => { y with
      die := seqNext x.dieWords.2 (fld w 31 0) x.die, peak := max x.peak (k + 1),
      dieHist := x.die :: y.dieHist.filter (fun h => decide (k ≤ h.step + 192)) }) s)

/-- GATE_INSTANT (R277): a gate whose instant has come sends its message. -/
def execGateInstant (slot : Nat) (s : State) : Host.Outcome State Fault Refusal :=
  match (slotAt slot s).gates with
  | (k, some t, samples) :: rest =>
    if t ≤ now s then .next (sendGate slot k samples (updSlot slot (fun x => { x with gates := rest }) s)) else .next s
  | _ => .next s

-- Region sequencer (R271–R274) -----------------------------------------------------------------------------------

/-- The Stove operations of a region word, in slot order (R272). The operation code is the first byte of the named
descriptor (R245). -/
def stoveJobs (r n k w : Nat) (s : State) : List StvJob :=
  ((List.range 4).filter (fun i => bit w (54 + 8 * i))).map (fun i =>
    let d := fld w (53 + 8 * i) (48 + 8 * i)
    { slot := n, step := k, desc := d, code := (SMap.get 0 (rgnAt r s).sram (32 * d)).toNat, tok := bit w (55 + 8 * i),
      run := false, int8 := false, pt := 0, sid := 0, bslot := 0, cause := 0, origin := none, blks := [], nums := [],
      sat := false, ufl := false })

/-- Whether a region sequencer of a slot may reach its next word (R283). -/
def regionMay (n r : Nat) (s : State) : Bool :=
  let x := slotAt n s
  let p := SMap.get SeqPos.start (rgnAt r s).seqs n
  seqRuns x s && !(rgnAt r s).fenced && decide ((SMap.get (0, 0) x.rgns r).2 ≠ 0) && !p.fin && decide (p.step < x.floor + x.slack)

/-- REGION_WORD_REACH (R283): the region sequencer of a slot issues its next word's Stove slots and transfer. -/
def execRegionWordReach (slot r : Nat) (s : State) : Host.Outcome State Fault Refusal :=
  if !regionMay slot r s then .next s
  else
    let x := slotAt slot s
    let p := SMap.get SeqPos.start (rgnAt r s).seqs slot
    let w := rgnWord x r p.w s
    let jobs := stoveJobs r slot p.step w s
    let xs : List Xfer := if bit w 88 then [{ slot := slot, idx := fld w 87 80, step := p.step, run := false }] else []
    .next (updRgn r (fun y => { y with
      jobs := y.jobs ++ jobs, xfers := y.xfers ++ xs,
      seqs := SMap.set SeqPos.start y.seqs slot (seqNext (SMap.get (0, 0) x.rgns r).2 (fld w 31 0) p),
      seqHist := SMap.upd [] y.seqHist slot (fun h => p :: h.filter (fun q => decide (p.step ≤ q.step + 192))) }) s)

-- The replay ring (R229–R232) ------------------------------------------------------------------------------------

/-- The lane word's actions: logical units whose entry is a READ or a FORWARD (R212, R266). -/
def laneActs (cl : Cluster) (w : Nat) : List Nat :=
  (List.range 64).filter (fun u => let k := uaKind (SMap.get 0 cl.uat (fld w (8 * u + 7) (8 * u))); decide (k = 1 ∨ k = 2))

/-- Reduction entries a lane word arms (R268). -/
def laneArms (w : Nat) : List Nat := (List.range (fld w 571 569)).map (· + fld w 568 564)

/-- The steps that a position of a cluster's lane stream leads to, `fuel` of them, each with its word (R262). -/
def laneAhead : Nat → Nat → SeqPos → State → List (Nat × Nat)
  | 0, _, _, _ => []
  | fuel + 1, c, p, s =>
    let n := (laneStream c s).2
    if p.fin ∨ n ≤ p.w then []
    else let w := laneWord c p.w s; (p.step, w) :: laneAhead fuel c (seqNext n (laneSeq w) p) s

/-- Steps ahead that the consumer of an arrival is looked for. -/
def aheadSteps : Nat := 256

/-- The lane word of a step of a cluster: the one in progress, one begun before, or one ahead. -/
def stepWord (c k : Nat) (s : State) : Nat :=
  let cl := cluAt c s
  if cl.busy && decide (k + 1 = cl.next) then cl.word
  else match cl.hist.find? (fun h => h.1 = k) with
    | some h => laneWord c h.2.1.w s
    | none => (((laneAhead aheadSteps c cl.lane s).find? (fun e => e.1 = k)).map (·.2)).getD 0

/-- Descriptor pair of the action by which a step of a word consumes n lines, a contribution or a unit's blocks that arrive: the action that reads
the lines, the armed entry, the unit's action (R212, R218, R229). -/
def wordPair (cl : Cluster) (word kind sub n : Nat) : Option Nat :=
  let acts := (laneActs cl word).map (fun u => (u, SMap.get 0 cl.uat (fld word (8 * u + 7) (8 * u))))
  match kind with
  | 1 => if (laneArms word).contains sub then some (rdDesc (SMap.get 0 cl.red sub)) else none
  | 2 => (acts.find? (fun e => decide (e.1 = sub ∧ uaInsrc e.2 = 1))).map (fun e => uaDesc e.2)
  | _ =>
    match acts.find? (fun e => decide (uaInsrc e.2 = 0 ∧ uaInline e.2 < sub + n ∧ sub < uaInline e.2 + 4)) with
    | some e => some (uaDesc e.2)
    | none => (((laneArms word).map (SMap.get 0 cl.red)).find? (fun r =>
        rdRin r && decide (rdRline r < sub + n ∧ sub < rdRline r + 8))).map rdDesc

/-- The step ahead of a cluster that first reads lines of its Pantry, where the lane stream shows one (R229). -/
def readerStep (c sub n : Nat) (s : State) : Option Nat :=
  ((laneAhead aheadSteps c (cluAt c s).lane s).find? (fun e => (wordPair (cluAt c s) e.2 0 sub n).isSome)).map (·.1)

/-- Ring lines of a step's record: its blocks and one line per four side records (R229). -/
def ringLines (e : RingStep) : Nat :=
  let bs := e.recs.flatMap (·.blks)
  sumN (bs.map (fun b => if twoLines b then 2 else 1)) + (bs.length + 3) / 4

/-- Descriptor pair of the action that consumes an arrival in its step (R229); where the step's word has none, that of the first action of the
tables that could. -/
def consumerPair (c step kind sub n : Nat) (s : State) : Nat :=
  let cl := cluAt c s
  (wordPair cl (stepWord c step s) kind sub n).getD (match kind with
    | 1 => rdDesc (SMap.get 0 cl.red sub)
    | 2 => uaDesc (actionOf cl sub)
    | _ =>
      match cl.uat.find? (fun e => uaInsrc e.2 = 0 && decide (uaInline e.2 < sub + n ∧ sub < uaInline e.2 + 4)) with
      | some e => uaDesc e.2
      | none => 0)

/-- Drop the oldest steps of a full ring (R232); `fuel` bounds their number. -/
def ringTrim : Nat → Nat → State → State
  | 0, _, s => s
  | fuel + 1, c, s =>
    let cl := cluAt c s
    let room := rf (.clu c) 0x280 24 16 s - rf (.clu c) 0x280 8 0 s
    match cl.ring with
    | [] => s
    | e :: rest =>
      if sumN (cl.ring.map ringLines) ≤ room then s
      else
        let old := rest.foldl (fun a b => if b.step < a.step then b else a) e
        let s := updClu c (fun cl => { cl with ring := cl.ring.filter (fun f => f.step ≠ old.step),
                                               lost := old.step :: cl.lost.filter (· ≠ old.step) }) s
        ringTrim fuel c (wf (.clu c) 0x288 19 0 old.step (wb (.clu c) 0x288 31 true s))

/-- Keep an arrival in the ring, over the failed one that its sender delivered there before (R229, R504). -/
def ringKeep (c step kind sub src : Nat) (alien : Bool) (blks : List Blk) (s : State) : State :=
  let cl := cluAt c s
  let layer := (descOf (rd (.clu c) (0x200 + 4 * consumerPair c step kind sub (max 1 (runLines blks)) s) s)).layer
  let rec_ : RingRec := { kind := kind, sub := sub, src := src, alien := alien, blks := blks,
                          recipe := SMap.get 0 cl.recipes layer, layer := layer }
  let old := (cl.ring.find? (fun e => e.step = step)).getD { step := step, recs := [] }
  let again (r : RingRec) : Bool := decide (r.kind = kind ∧ r.sub = sub ∧ r.src = src) && r.blks.any (fun b => causeFails b.cause)
  let recs := match old.recs.findIdx? again with
    | some i => setNth old.recs i { rec_ with recipe := (nth rec_ old.recs i).recipe }
    | none => old.recs ++ [rec_]
  let s := setClu c { cl with ring := cl.ring.filter (fun e => e.step ≠ step) ++ [{ step := step, recs := recs }] } s
  ringTrim (cl.ring.length + 1) c s

/-- Replay window of a cluster (R230). -/
def ringWindow (c : Nat) (s : State) : Nat := let w := rf (.clu c) 0x284 5 0 s; if w = 0 then 64 else w

/-- Deliver one arrival where its kind and SUB say: Pantry lines, a reduction port, or a unit's filling half (R337); a unit's blocks are a
consumer's as they come (R122). -/
def place (c kind sub src : Nat) (alien : Bool) (blks : List Blk) (s : State) : State :=
  match kind with
  | 0 =>
    let s := setLines c sub blks s
    if alien then updClu c (fun cl => { cl with alien := (List.range (runLines blks)).map (· + sub) ++ cl.alien }) s else s
  | 1 => contribute c sub true src blks s
  | 2 =>
    match physOf c sub s with
    | none => s
    | some k => updUnit c k (fun x => { x with filling := x.filling ++ blks }) s
  | _ => s

/-- Deliver again to the Pantry and to units what the ring holds of a step (R503); its contributions follow as their entries are armed. -/
def redeliver (c k : Nat) (s : State) : State :=
  match (cluAt c s).ring.find? (fun e => e.step = k) with
  | none => s
  | some e => (e.recs.filter (fun r => r.kind ≠ 1)).foldl (fun s r => place c r.kind r.sub r.src r.alien r.blks s) s

-- Conditions of a cluster's advance (R37, R284, R293, R619, R622) --------------------------------------------------

/-- Steps a cluster has completed (R285). -/
def Cluster.completed (cl : Cluster) : Nat := if cl.busy then cl.next - 1 else cl.next

/-- The lane word of the cluster's next step, where it is held. -/
def nextLane (cl : Cluster) : Nat := SMap.get 0 cl.store cl.lane.w

/-- Counters that a lane word names and that hold no token (R284). -/
def missing (cl : Cluster) : List Nat :=
  (List.range 7).filter (fun i => bit (nextLane cl) (544 + i) && decide (SMap.get 0 cl.tokens i = 0))

/-- The gate message is named and absent. -/
def noGate (cl : Cluster) : Bool := bit (nextLane cl) 551 && !(cl.gates.any (fun g => g.step = cl.next))

/-- The slack token is absent (R284). -/
def noSlack (x : Slot) (cl : Cluster) : Bool := decide (cl.floor + x.slack ≤ cl.next)

/-- A thermal throttle holds the region now (R622): steps begin only within D_L of each microsecond. -/
def thermalHold (r : Nat) (s : State) : Bool :=
  decide (nth 0 [800, 400, 200, 100, 0] (rgnAt r s).level ≤ 8 * (now s % 100))

/-- The charge of the whole die (R614). -/
def chargeNow (s : State) : Nat := sumN (s.rgns.map (fun e => e.2.charge))

/-- SERVICE, a trip or the package limit holds every advance (R619). -/
def damperHold (s : State) : Bool := inService s || tripped s || decide (s.qmax < chargeNow s)

/-- A unit of the cluster waits for a grant (R619). -/
def unitWaits (c : Nat) (s : State) : Bool :=
  (rgnAt (regionOf c) s).asks.any (fun a => match a.who with
    | .unit k => decide (k / 128 = c)
    | _ => false)

/-- The next lane word is not in the lane store, or, before step 0, its first 32 words are not (R235, R318). -/
def noLane (c : Nat) (s : State) : Bool :=
  let cl := cluAt c s
  let (_, n) := laneStream c s
  !laneHeld cl cl.lane.w || (decide (cl.next = 0 ∧ cl.peak = 0) && decide (cl.loaded < min 32 n))

/-- Pantry lines that the next step would consume (R212, R220). -/
def stepLines (cl : Cluster) : List Nat :=
  let w := nextLane cl
  let acts := (laneActs cl w).map (fun u => SMap.get 0 cl.uat (fld w (8 * u + 7) (8 * u)))
  (acts.filter (fun e => uaInsrc e = 0)).flatMap (fun e => (List.range 4).map (· + uaInline e)) ++
    ((laneArms w).map (fun e => SMap.get 0 cl.red e)).flatMap (fun e =>
      if rdRin e then (List.range 4).map (· + rdRline e) else [])

/-- While a rollback is current, a cluster does not begin a step that would consume a failed block from inside the
pitch (R504): in the Pantry, or in the ring for a step executed again. -/
def failedInput (x : Slot) (cl : Cluster) : Bool :=
  match x.rollTo with
  | none => false
  | some j => decide (x.floor ≤ j ∧ j ≤ cl.next) &&
    ((stepLines cl).any (fun l => causeFails (pantryLine cl l).cause && !cl.alien.contains l) ||
      (decide (cl.next < cl.peak) && (cl.ring.any (fun e => decide (e.step = cl.next) &&
        e.recs.any (fun r => !r.alien && r.blks.any (fun b => causeFails b.cause))))))

/-- Whether a cluster begins its next step now, all but the lane store's condition. -/
def mayBegin (n c : Nat) (s : State) : Bool :=
  let x := slotAt n s
  let cl := cluAt c s
  seqRuns x s && !cl.busy && !cl.hold && cl.replayTo.isNone && !cl.lane.fin && !cl.fenced && !(rgnAt (regionOf c) s).fenced &&
    (missing cl).isEmpty && !noGate cl && !noSlack x cl && !thermalHold (regionOf c) s && !damperHold s && !failedInput x cl

/-- Whether the region word of a cluster's next step grants its block a gap (R270, R271). -/
def gapGranted (x : Slot) (c : Nat) (s : State) : Bool :=
  let p := (cluAt c s).gapSeq
  bit (rgnWord x (regionOf c) p.w s) (32 + (c / 128 % 16 / 4) * 4 + c % 128 % 16 / 4)

-- Beginning and completing a step ---------------------------------------------------------------------------------

/-- Changes that wait for a step boundary (R38, R345, R346): bank, cluster fence, unit fences, and then the spares, so that a fence of a slot
whose spare stands in makes that its substitute before anything else (R95 orders 6 and 10). -/
def boundary (c : Nat) (s : State) : State :=
  let s := if (cluAt c s).fenced = (cluAt c s).fenceReq then s else logWritten s
  let s := updClu c (fun cl => { cl with bank := cl.bankNext.getD cl.bank, bankNext := none, fenced := cl.fenceReq }) s
  let s := wb (.clu c) 0x314 8 (decide ((cluAt c s).bank = 1)) s
  let s := foldRange 68 (fun k s => fenceNow c k s) s
  foldRange 4 (fun i s => spareBoundary c i s) s

/-- Take the tokens and gate messages of a step, and apply the recipe samples (R159, R284, R288). -/
def takeNeeds (cl : Cluster) (k w : Nat) : Cluster :=
  let tokens := (List.range 7).foldl (fun m i => if bit w (544 + i) then SMap.upd 0 m i (· - 1) else m) cl.tokens
  let (mine, rest) := cl.gates.partition (fun g => decide (g.step ≤ k))
  let recipes := mine.foldl (fun m g => g.samples.foldl (fun m e => SMap.set 0 m e.1 e.2) m) cl.recipes
  { cl with tokens := tokens, gates := rest, recipes := recipes }

/-- The recipes of step k (R159, R160): those sampled, or, in a step executed again, those of its first execution. -/
def stepRecipes (cl : Cluster) (k : Nat) (fresh : SMap Nat) : SMap Nat :=
  if k < cl.peak then ((cl.rcpLog.find? (fun e => e.1 = k)).map (·.2)).getD fresh else fresh

/-- Begin step k of a cluster of slot n (R37, R231, R268, R270, R284). The ring keeps with the step's arrivals the recipe of the layer that
consumes each (R160). A step executed again takes the recipes of its first execution, and its arrivals from the ring, before it arms (R503). -/
def beginStep (n c : Nat) (ecc : List (Nat × Bool)) (s : State) : State :=
  let x := slotAt n s
  let cl := cluAt c s
  let k := cl.next
  let w := nextLane cl
  let (_, words) := laneStream c s
  let (_, rwords) := SMap.get (0, 0) x.rgns (regionOf c)
  let gq := fld (rgnWord x (regionOf c) cl.gapSeq.w s) 31 0
  let gap := gapGranted x c s
  let again := decide (k < cl.peak)
  let cl0 := takeNeeds cl k w
  let rcp := stepRecipes cl k cl0.recipes
  let keep (e : RingStep) : RingStep :=
    if e.step = k then { e with recs := e.recs.map (fun r => { r with recipe := SMap.get 0 rcp r.layer }) } else e
  let cl1 := { cl0 with
    word := w, next := k + 1, busy := true, acts := laneActs cl w, gap := gap, chunked := [], laneWait := false,
    lane := seqNext words (laneSeq w) cl.lane, gapSeq := seqNext rwords gq cl.gapSeq, waitArm := laneArms w,
    hist := (k, cl.lane, cl.gapSeq, fld w 550 544) :: cl.hist.filter (fun h => decide (k ≤ h.1 + 192)),
    recipes := rcp, rcpLog := (k, rcp) :: cl.rcpLog.filter (fun e => decide (e.1 ≠ k ∧ k < e.1 + 64)),
    ring := (cl.ring.filter (fun e => decide (k < e.step + ringWindow c s))).map keep,
    lost := cl.lost.filter (fun j => decide (k < j + ringWindow c s)), again := again }
  let s := setClu c cl1 s
  let s := if again then redeliver c k s else s
  let s := armWaiting c k ecc s
  let s := updClu c (fun cl => { cl with peak := max cl.peak (k + 1) }) s
  (cl1.acts).foldl (fun s u =>
    let dead := match physOf c u s with
      | none => true
      | some p => (unitAt c p s).fenced
    if dead then fencedAction c u (actionOf cl1 u) k s else s) s

/-- CLUSTER_STEP_BEGIN (R37, R284): a cluster begins its next step when every condition holds; a missing lane word is
counted once for each wait (R235). Changes ordered while it waits take effect before the step begins (R38). -/
def execClusterStepBegin (c : Nat) (ecc : List (Nat × Bool)) (s : State) : Host.Outcome State Fault Refusal :=
  match slotOfClu c s with
  | none => .next s
  | some n =>
    if !mayBegin n c s then .next s
    else if noLane c s then
      if (cluAt c s).laneWait then .next s
      else .next (updClu c (fun cl => { cl with laneWait := true }) (bump (.clu c) 0x290 31 0 1 s))
    else
      let s := boundary c s
      if (cluAt c s).fenced then .next s else .next (beginStep n c ecc s)

/-- Send the token of a completed step, now or once every message of the step is resolved (R269, R338); a step executed
again sends only a token not sent before (R504). -/
def stepToken (c k : Nat) (s : State) : State :=
  let cl := cluAt c s
  let w := cl.word
  if !bit w 563 || cl.tokSent.contains k then s
  else
    let s := updClu c (fun cl => { cl with tokSent := k :: cl.tokSent.filter (fun j => decide (k ≤ j + 192)) }) s
    if sendsOpen (cluAt c s) k then
      updClu c (fun cl => { cl with tokWait := cl.tokWait ++ [(k, fld w 559 552, fld w 562 560)] }) s
    else sendToken c (fld w 559 552) (fld w 562 560) k s

/-- A spare of the cluster is being loaded: a rollback that a substitution answers waits for it (R515). -/
def spareLoading (c : Nat) (s : State) : Bool := (List.range 4).any (fun i => spareSt c i s == 1)

/-- Entries of the step in progress that wait for the residual alone: such an entry completes in its arming step (R220). -/
def soloOpen (cl : Cluster) : Bool :=
  cl.armed.any (fun a => decide (a.step + 1 = cl.next) &&
    (let e := SMap.get 0 cl.red a.entry; decide (rdUnits e = 0 ∧ rdRems e = 0)))

/-- Whether actions of the step in progress are incomplete (R37, R220, R221, R293). -/
def actionsOpen (cl : Cluster) : Bool := cl.busy && (!cl.acts.isEmpty || !cl.waitArm.isEmpty || soloOpen cl)

/-- A cluster acts on the RECALL it holds, at a step boundary (R503): it goes back to the recalled step when it has
begun it. A cluster that holds its step waits while a spare loads (R515). -/
def replayNow (c : Nat) (s : State) : State :=
  let cl := cluAt c s
  match cl.replayTo with
  | none => s
  | some j =>
    if (cl.busy && !(cl.hold && !actionsOpen cl)) || (cl.hold && spareLoading c s) then s
    else if cl.next ≤ j then setClu c { cl with replayTo := none, hold := false } s
    else
      let back := cl.hist.filter (fun h => decide (j ≤ h.1))
      let tokens := back.foldl (fun m h => (List.range 7).foldl (fun m i =>
        if bit h.2.2.2 i then SMap.upd 0 m i (fun v => min 255 (v + 1)) else m) m) cl.tokens
      let (lane, gap) := match cl.hist.find? (fun h => h.1 = j) with
        | some h => (h.2.1, h.2.2.1)
        | none => (cl.lane, cl.gapSeq)
      let cl := { cl with
        replayTo := none, next := j, busy := false, hold := false, acts := [], waitArm := [], armed := [], lane := lane,
        gapSeq := gap, tokens := tokens, gates := cl.gates.filter (fun g => decide (g.step ≤ j)),
        hist := cl.hist.filter (fun h => decide (h.1 < j)), tokWait := cl.tokWait.filter (fun t => decide (t.1 < j)),
        fails := cl.fails.filter (fun e => decide (e.1 < j)), stuck := [] }
      let s := setClu c cl s
      boundary c (foldRange 68 (fun k s => updUnit c k (fun x => { x with filling := [] }) s) s)

/-- Addresses of a stack: its own range, or its whole group when that is interleaved (R375). -/
def stackRange (n : Nat) (s : State) : Nat × Nat :=
  if interleaved (n / 4) s then (n / 4 * groupSize, groupSize) else (n / 4 * groupSize + n % 4 * stackSize, stackSize)

/-- Whether a range of addresses touches a fenced stack (R388). -/
def rangeFenced (a len : Nat) (s : State) : Bool :=
  (List.range 20).any (fun n => stkFenced n s &&
    (let (b, l) := stackRange n s; decide (a < b + l ∧ b < a + len)))

/-- A slot reaches ENDED (R307, R581): it runs nothing more, no Stove operation or transfer either; entries are disarmed, batches still in flight and the half being filled end with
`status`, its open streams end with it, and ADM_END is raised. A stream whose cache lay on a fenced stack takes
STACKLOST. -/
def endSlot (n status why : Nat) (s : State) : State :=
  let x := slotAt n s
  let s := (slotClusters x).foldl (fun s c => updClu c (fun cl => { cl with armed := [], waitArm := [], busy := false, acts := [],
                                                                            hold := false, replayTo := none }) s) s
  let of_ (sid : Nat) (s : State) : Nat :=
    let e := (strmAt sid s).ent
    if rangeFenced e.kvbase (e.kvcap * e.kvpos) s then stSTACKLOST else status
  let ended := (s.strms.filter (fun e => e.2.ent.slot = n ∧ e.2.ent.state = 1)).map (·.1)
  let s := ended.foldl (fun s sid => endStream sid (of_ sid s) s) s
  let gone := x.batches ++ (if why = 1 then x.exiting.map (·.2) else [])
  let s := gone.foldl (fun s b => b.tokens.foldl (fun s t => completePlaced n t.2.1 t.2.2 (of_ t.2.1 s) s) s) s
  let s := x.filling.foldl (fun s t => completePlaced n t.2.1 t.2.2 (of_ t.2.1 s) s) s
  let s := x.batches.foldl (fun s b => drainBatch n b.plane (x.die.step - 1) s) s
  let s := (slotRegions x).foldl (fun s r => dropJobs n 0 r s) s
  let s := updSlot n (fun x => { x with
    st := .ended, batches := [], filling := [], exiting := if why = 1 then [] else x.exiting, gates := [],
    links := [], pgmStop := false }) s
  mirrorSlotItem n (fire 69 s)

/-- Whether every cluster of a slot is stopped at a step boundary. -/
def allStopped (x : Slot) (s : State) : Bool := (slotClusters x).all (fun c => !(cluAt c s).busy)

/-- A terminating image whose clusters have all completed step PRO − 1 ends (R265, R307). -/
def endIfDone (n : Nat) (s : State) : State :=
  let x := slotAt n s
  if x.st.runs && decide (x.body = 0) && (slotClusters x).all (fun c => decide (x.pro ≤ (cluAt c s).completed)) then
    endSlot n stENDED 2 s
  else s

/-- CLUSTER_STEP_COMPLETE (R37): once its actions and arms are all done a step's failures are reported (R499) and it completes, unless a
replayable one holds it (R501); its token leaves, a RECALL held is acted on, and a terminating image may end. -/
def execClusterStepComplete (c : Nat) (s : State) : Host.Outcome State Fault Refusal :=
  let cl := cluAt c s
  let s := if cl.busy && !actionsOpen cl then sendFails c (cl.next - 1) s else s
  if (cluAt c s).hold then .next (replayNow c s)
  else if !cl.busy || actionsOpen cl then .next s
  else
    let s := countRgn (regionOf c) 0x20 1 (updClu c (fun cl => { cl with busy := false }) s)
    let s := boundary c (stepToken c (cl.next - 1) (netSettle c (cl.next - 1) s))
    let s := replayNow c s
    .next (match slotOfClu c s with
      | none => s
      | some n => endIfDone n s)

-- Tokens and control beats (R287, R329, R330, R351) -----------------------------------------------------------------

/-- Whether a beat's pitch is foreign to a cluster (R351). -/
def foreign (c pitch : Nat) (s : State) : Bool :=
  let w := rd (.clu c) 0x318 s
  !getB w 4 || decide (getF w 3 0 ≠ pitch)

/-- Drop foreign beats (R351). -/
def dropForeign (c n : Nat) (s : State) : State :=
  let w := rd (.clu c) 0x318 s
  let s := countRgn (regionOf c) 0x43 n (bump (.clu c) 0x31C 7 0 n s)
  if getB w 4 then bump pgPch (0x140 + 4 * getF w 3 0) 31 0 n s else bump pgPch 0x180 31 0 n s

/-- A control beat that both copies of its tag fail, or that is misdelivered, is lost (R329, R330). -/
def controlLost (c : Nat) (s : State) : State := fire 70 (parityEvent c s)

/-- Take a control beat at cluster c: used by `f`, lost, or dropped as foreign (R329, R330, R351). -/
def takeControl (c : Nat) (b : CBeat) (f : State → State) (s : State) : State :=
  if !b.tagOk && !b.dataOk then controlLost c s
  else if b.tag.dcl ≠ c then controlLost c s
  else if foreign c b.tag.pitch s then dropForeign c 1 s
  else f (countRgn (regionOf c) 0x41 1 s)

/-- Answer a message at cluster c on RSP: an ACK with the number of blocks accepted (R326, R336). -/
def ackTo (c : Nat) (t : Tag) (id n : Nat) (s : State) : State :=
  sendControl c id c { tagTo c srcNone t.scl 6 (max 1 n) 2 s with pitch := t.pitch } s

/-- Refuse a message at cluster c for one target, with a status and the number of blocks refused (R326, R336, R767). -/
def refuseTo (c : Nat) (t : Tag) (id target status n : Nat) (s : State) : State :=
  sendControl c id target { tagTo c srcNone t.scl 7 (max 1 n) 2 s with pitch := t.pitch, fmt := status } s

/-- Refusal statuses (R336). -/
def rsFENCEDDST : Nat := 0
def rsNOROUTE : Nat := 1
def rsLINKDOWN : Nat := 2
def rsBADSUB : Nat := 3

/-- Whether a cluster is fenced as a destination: itself, or by its region, whose fence is in effect from the cluster's step boundary (R38, R336, R353,
R525). -/
def cluFenced (c : Nat) (s : State) : Bool :=
  let g := rgnAt (regionOf c) s
  (cluAt c s).fenced || g.off || (g.fenced && atBoundary c s)

/-- Add a token to a counter of a cluster (R287). -/
def addToken (c i : Nat) (s : State) : State :=
  if 6 < i then s
  else if SMap.get 0 (cluAt c s).tokens i = 255 then recordErr (.clu c) errBLOCK (wb (.clu c) 0x2B0 31 true s)
  else updClu c (fun cl => { cl with tokens := SMap.upd 0 cl.tokens i (· + 1) }) s

/-- A token at its cluster: accepted and answered, or refused where the cluster is fenced or has no counter of that number (R269, R287, R336). -/
def takeToken (c : Nat) (b : CBeat) (s : State) : State :=
  if cluFenced c s then refuseTo c b.tag b.id c rsFENCEDDST 0 s
  else if 6 < b.tag.sub then refuseTo c b.tag b.id c rsBADSUB 0 s
  else ackTo c b.tag b.id 0 (addToken c b.tag.sub s)

/-- TOKEN_ARRIVAL (R287, R336). -/
def execTokenArrival (c : Nat) (b : CBeat) (s : State) : Host.Outcome State Fault Refusal :=
  .next (takeControl c b (takeToken c b) s)

-- Floors (R285, R289) -----------------------------------------------------------------------------------------------

/-- Steps completed by every cluster of a region in a slot's pitch. -/
def rgnFloor (x : Slot) (r : Nat) (s : State) : Nat :=
  let l := ((slotClusters x).filter (fun c => regionOf c = r)).map (fun c => (cluAt c s).completed)
  match l with
  | [] => 0
  | a :: l => l.foldl min a

/-- FLOOR_SAMPLE (R285): a region controller samples its clusters' completed steps for each running pitch and sends
them to the die. -/
def execFloorSample (r : Nat) (s : State) : Host.Outcome State Fault Refusal :=
  let ns := (List.range 16).filter (fun n => let x := slotAt n s; x.st.runs && (slotRegions x).contains r)
  .next (if ns.isEmpty then s else say .guyline (0xA :: r :: ns.flatMap (fun n => [n, rgnFloor (slotAt n s) r s])) s)

/-- The floor of a slot: the smallest step that some cluster of its pitch has not completed (R285). -/
def trueFloor (n : Nat) (s : State) : Nat :=
  match (slotClusters (slotAt n s)).map (fun c => (cluAt c s).completed) with
  | [] => 0
  | a :: l => l.foldl min a

/-- The floor that the die forms from the samples it holds; what is published never exceeds the floor itself (R285). -/
def dieFloor (n : Nat) (s : State) : Nat :=
  match slotRegions (slotAt n s) with
  | [] => 0
  | r :: rs => min (trueFloor n s) (rs.foldl (fun a r => min a (SMap.get 0 (rgnAt r s).samples n)) (SMap.get 0 (rgnAt r s).samples n))

/-- The die publishes a floor that has risen (R285). -/
def publishFloor (n : Nat) (s : State) : State :=
  let x := slotAt n s
  let f := dieFloor n s
  if !x.st.runs || decide (f ≤ x.floor) then s
  else
    issueDown x [4, f] [4, 2, x.pitch, f] (setSlot n { x with floor := f, pubTime := now s, stalled := false } s)

/-- SAMPLE_MESSAGE (R285): a region's samples, by slot, reach the die, which forms and publishes the floors. -/
def execSampleMessage (r : Nat) (samples : List (Nat × Nat)) (s : State) : Host.Outcome State Fault Refusal :=
  .next (samples.foldl (fun s e =>
    publishFloor e.1 (updRgn r (fun x => { x with samples := SMap.set 0 x.samples e.1 e.2 }) s)) s)

/-- FLOOR_MESSAGE (R285): the published floor reaches a cluster. -/
def execFloorMessage (c slot floor : Nat) (s : State) : Host.Outcome State Fault Refusal :=
  match downTurn c [4, floor] s with
  | none => .next s
  | some s => .next (if slotOfClu c s = some slot then updClu c (fun cl => { cl with floor := max cl.floor floor }) s else s)

/-- Take a gate message (R159, R288): it is held for a step not yet begun. Its recipe samples reach a cluster that has begun the step, whose
word does not wait for the gate, at once. -/
def takeGate (c step : Nat) (samples : List (Nat × Nat)) (s : State) : State :=
  let cl := cluAt c s
  if step < cl.next then setClu c { cl with recipes := samples.foldl (fun m e => SMap.set 0 m e.1 e.2) cl.recipes } s
  else if 64 ≤ cl.gates.length then s
  else setClu c { cl with gates := cl.gates.filter (fun g => g.step ≠ step) ++ [{ step := step, samples := samples }] } s

/-- GATE_MESSAGE (R42, R159, R288): a gate message reaches a cluster in its turn. -/
def execGateMessage (c step : Nat) (samples : List (Nat × Nat)) (s : State) : Host.Outcome State Fault Refusal :=
  match downTurn c [3, step] s with
  | none => .next s
  | some s => .next (takeGate c step samples s)

/-- ADM_STALL_TIMEOUT (R289, R315). -/
def execAdmStallTimeout (slot : Nat) (s : State) : Host.Outcome State Fault Refusal :=
  let x := slotAt slot s
  let t := rf pgAdm 0x134 15 0 s
  if x.st ≠ .running ∨ t = 0 ∨ x.stalled ∨ now s < x.pubTime + usec * t then .next s
  else .next (fire 68 (wb pgAdm (0x140 + 4 * slot) 28 true (setSlot slot { x with stalled := true } s)))

-- Rollback (R503, R505) ----------------------------------------------------------------------------------------------

/-- RECALL_MESSAGE (R42, R503): a cluster takes the RECALL of a step and its generation in its turn, and acts on it at its next step
boundary; a cluster that waits is there already (R38). -/
def execRecallMessage (c step gen : Nat) (s : State) : Host.Outcome State Fault Refusal :=
  match downTurn c [5, step, gen % 16] s with
  | none => .next s
  | some s => .next (replayNow c (updClu c (fun cl => { cl with replayTo := some step, replayGen := gen % 16 }) s))

-- Stack transfers (R273) --------------------------------------------------------------------------------------------

/-- An entry of the stack transfer table (R273). -/
structure XferEnt where
  addr : Nat
  len  : Nat
  dir  : Nat
  tok  : Option Nat
  clu  : Nat
  line : Nat
deriving DecidableEq, Repr

/-- Entry idx of a region's transfer table, from Stove SRAM (R273). -/
def xferEnt (r idx : Nat) (s : State) : XferEnt :=
  let b := (List.range 32).map (fun i => SMap.get 0 (rgnAt r s).sram (0x800 + 32 * idx + i))
  { addr := leAt b 0 8 % 2 ^ 40, len := leAt b 8 4, dir := leAt b 12 1,
    tok := if leAt b 13 1 / 128 = 1 then some (leAt b 13 1 % 8) else none, clu := leAt b 14 2 % 16384, line := leAt b 16 2 }

/-- STACK_TRANSFER (R273): a transfer that a region word named starts. -/
def execStackTransfer (r slot idx : Nat) (s : State) : Host.Outcome State Fault Refusal :=
  let x := rgnAt r s
  match x.xfers.findIdx? (fun t => t.slot = slot ∧ t.idx = idx ∧ !t.run) with
  | none => .next s
  | some i =>
    .next (setRgn r { x with xfers := x.xfers.zipIdx.map (fun (t, j) => if j = i then { t with run := true } else t) } s)

/-- Causes of n Pantry lines, one per 64 B beat (R384): a failing one for a line with an uncorrectable word (R228). -/
def lineCauses (cl : Cluster) (line n : Nat) (ecc : List (Nat × Bool)) : List Nat :=
  (List.range n).map (fun i =>
    let c := (lineAt cl (line + i)).tag.cause
    if wordsIn ecc (line + i) 1 true = 0 then c else if causeFails c then c else causeChecksum)

/-- Whether a line of Stove SRAM holds what a failed verdict covers: a poisoned line, or a block that failed (R253, R762). -/
def sramFails (r l : Nat) (s : State) : Bool :=
  let x := rgnAt r s
  decide (SMap.get 0 x.poison l ≠ 0) || (match SMap.get none x.tags l with
    | none => false
    | some t => causeFails t.cause)

/-- Move a transfer's data (R273): a read with uncorrectable sectors delivers failed blocks, reported as STATE (R500); what reaches the Pantry is
kept in the ring for the step that consumes it (R229). A beat with a failing cause into an output record sets the record's failure bit (R579). -/
def moveXfer (r : Nat) (t : Xfer) (e : XferEnt) (errs : List SectErr) (ecc : List (Nat × Bool)) (s : State) : State :=
  let lines := e.len / 64
  let key := [1, t.slot, t.step, t.idx]
  let ids := (List.range lines).map (fun i => tokenAt t.slot (e.addr + 64 * i) s)
  let failed (l : List Bool) (s : State) : State :=
    l.zipIdx.foldl (fun s (f, i) => if f then outputFailed (e.addr + 64 * i) 64 s else s) s
  match e.dir with
  | 0 =>
    let ((data, bad, _), s) := readSectors e.addr (e.len / 32) errs s
    let k := (readerStep e.clu e.line lines s).getD t.step
    let s := deliverMem e.clu e.line key ids data bad s
    let cl := cluAt e.clu s
    let s := foldRange lines (fun i s => match lineAt cl (e.line + i) with
      | .blk b => ringKeep e.clu k 0 (e.line + i) (16384 * 64) true [b] s
      | .tail _ => s) s
    if bad.isEmpty then s else report e.clu k orgState 0 0x7F s
  | 1 =>
    let cl := cluAt e.clu s
    let s := wordErrors e.clu e.line lines t.step ecc s
    let s := failed ((lineCauses cl e.line lines ecc).map causeFails) s
    writeSectors e.addr (slice (pantryBytes cl lines e.line) 0 e.len) s
  | 2 =>
    let ((data, bad, _), s) := readSectors e.addr (e.len / 32) errs s
    deliverMem (16384 + r) e.line key ids data bad s
  | _ =>
    let s := failed ((List.range lines).map (fun i => sramFails r (e.line + i) s)) s
    writeSectors e.addr ((List.range e.len).map (fun i => SMap.get 0 (rgnAt r s).sram (64 * e.line + i))) s

/-- STACK_TRANSFER_COMPLETE (R273): the region's oldest running transfer moves its data and sends its token; `errs` are sectors, `ecc` Pantry
words read in error. -/
def execStackTransferComplete (r : Nat) (errs : List SectErr) (ecc : List (Nat × Bool)) (s : State) : Host.Outcome State Fault Refusal :=
  let x := rgnAt r s
  match x.xfers.find? (·.run) with
  | none => .next s
  | some t =>
    let e := xferEnt r t.idx s
    let s := moveXfer r t e errs ecc (setRgn r { x with xfers := x.xfers.erase t } s)
    .next (match e.tok with
      | none => s
      | some k => sendTokenTo (stoveCluster r) e.clu k (slotAt t.slot s).pitch t.step s)

end Sys2Proof.Machine
end

