-- ==== Sys2Proof/Machine/Image.lean ====
section
/-! DEFINITION. A Sychesha image in stack memory (R294–R303): its header, sections, streams and schedules, as admission
reads them. Image offsets count from the image's first byte. -/

namespace Sys2Proof.Machine

/-- n bytes of an image at an offset, as a number. -/
def ib (a off n : Nat) (s : State) : Nat := leNat (memRead (a + off) n s)

/-- Bytes of the signature (R294). -/
def sigLen : Nat := 4627

-- Header fields (R295) -----------------------------------------------------------------------------------

def hSlack (a : Nat) (s : State) : Nat := ib a 0x00A 1 s
def hWindow (a : Nat) (s : State) : Nat := ib a 0x00B 1 s
def hEgress (a : Nat) (s : State) : Nat := ib a 0x00C 1 s
def hPlanes (a : Nat) (s : State) : Nat := ib a 0x00D 1 s
def hLayers (a : Nat) (s : State) : Nat := ib a 0x00E 2 s
def hReq (a : Nat) (s : State) : Nat := ib a 0x010 8 s
def hOpt (a : Nat) (s : State) : Nat := ib a 0x018 8 s
def hLen (a : Nat) (s : State) : Nat := ib a 0x020 8 s
def hPro (a : Nat) (s : State) : Nat := ib a 0x028 8 s
def hBody (a : Nat) (s : State) : Nat := ib a 0x030 8 s
def hX (a : Nat) (s : State) : Nat := ib a 0x038 2 s
def hY (a : Nat) (s : State) : Nat := ib a 0x03A 2 s
def hW (a : Nat) (s : State) : Nat := ib a 0x03C 2 s
def hH (a : Nat) (s : State) : Nat := ib a 0x03E 2 s
def hSlots (a : Nat) (s : State) : Nat := ib a 0x040 2 s
def hMirror (a : Nat) (s : State) : Nat := ib a 0x044 4 s
def hModel (a p : Nat) (s : State) : List Byte := memRead (a + 0x048 + 16 * p) 16 s
def hRcp (a layer : Nat) (s : State) : Nat := ib a (0x080 + layer / 4) 1 s / 4 ^ (layer % 4) % 4
def hWide (a : Nat) (s : State) : Nat := ib a 0x0C0 32 s

/-- Whether any byte of a list is not zero. -/
def nonZero (l : List Byte) : Bool := l.any (· != 0)

-- Sections (R296) --------------------------------------------------------------------------------------------

/-- A directory entry: TYPE, reserved bytes, LENGTH, OFFSET. -/
structure DirEnt where
  type : Nat
  rsv  : Nat
  len  : Nat
  off  : Nat
deriving DecidableEq, Repr

/-- Directory entry i. -/
def dirEnt (a : Nat) (s : State) (i : Nat) : DirEnt :=
  let p := 0x100 + 16 * i
  { type := ib a p 2 s, rsv := ib a (p + 2) 2 s, len := ib a (p + 4) 4 s, off := ib a (p + 8) 8 s }

/-- The used directory entries. -/
def dirEnts (a : Nat) (s : State) : List DirEnt := ((List.range 16).map (dirEnt a s)).filter (fun e => e.type ≠ 0)

/-- Offset and length of a section; length 0 where it is missing. -/
def sect (a t : Nat) (s : State) : Nat × Nat :=
  match (dirEnts a s).find? (fun e => e.type = t) with
  | none => (0, 0)
  | some e => (e.off, e.len)

/-- The clusters of the image's pitch, in row-major order, and the regions that hold some of them. -/
def imgClus (a : Nat) (s : State) : List Nat :=
  (List.range (hH a s)).flatMap (fun dy => (List.range (hW a s)).map (fun dx => (hY a s + dy) * 128 + hX a s + dx))
def imgRgns (a : Nat) (s : State) : List Nat :=
  slotRegions { Slot.vacant with px0 := hX a s, py0 := hY a s, pw := hW a s, ph := hH a s }

/-- A sub-entry of the REGION or LANE section: its index, reserved bytes, words and their offset. -/
structure SubEnt where
  idx : Nat
  rsv : Nat
  n   : Nat
  off : Nat
deriving DecidableEq, Repr

/-- Sub-entry j of a section. Its offset counts from the image's start, as a directory entry's does. -/
def subEnt (a t j : Nat) (s : State) : SubEnt :=
  let p := (sect a t s).1 + 16 * j
  { idx := ib a p 2 s, rsv := ib a (p + 2) 2 s, n := ib a (p + 4) 4 s, off := ib a (p + 8) 8 s }

/-- Words of the die stream: offset and number. -/
def dieStream (a : Nat) (s : State) : Nat × Nat := let (o, l) := sect a 2 s; (o, l / 32)

/-- The streams of an image: for each, its section, index, place in the section, bytes a word, bit of SEQ, offset and number of words. -/
structure Stream where
  sec  : Nat
  idx  : Nat
  place : Nat
  size : Nat
  bit0 : Nat
  off  : Nat
  n    : Nat
deriving DecidableEq, Repr

def dieStr (a : Nat) (s : State) : Stream := let (o, n) := dieStream a s; { sec := 2, idx := 0, place := 0, size := 32, bit0 := 0, off := o, n := n }
def rgnStrs (a : Nat) (s : State) : List Stream :=
  (imgRgns a s).zipIdx.map (fun (r, j) => let e := subEnt a 3 j s; { sec := 3, idx := r, place := j, size := 16, bit0 := 0, off := e.off, n := e.n })
def laneStrs (a : Nat) (s : State) : List Stream :=
  (imgClus a s).zipIdx.map (fun (c, j) => let e := subEnt a 4 j s; { sec := 4, idx := c, place := j, size := 72, bit0 := 512, off := e.off, n := e.n })

/-- Word w of a stream, and its SEQ. -/
def Stream.word (t : Stream) (a w : Nat) (s : State) : Nat := ib a (t.off + t.size * w) t.size s
def Stream.seq (t : Stream) (a : Nat) (s : State) (w : Nat) : Nat := fld (t.word a w s) (t.bit0 + 31) t.bit0
/-- Every word of a stream with its number. -/
def Stream.words (t : Stream) (a : Nat) (s : State) : List (Nat × Nat) := (List.range t.n).map (fun w => (w, t.word a w s))

/-- The words that execute in the first `k` steps of a stream (R262). -/
def expandF (n : Nat) (q : Nat → Nat) : Nat → SeqPos → List Nat
  | 0, _ => []
  | k + 1, p => if p.fin then [] else p.w :: expandF n q k (seqNext n (q p.w) p)

/-- The words of one prologue and one body. -/
def Stream.expand (t : Stream) (a : Nat) (s : State) : List Nat :=
  expandF t.n (t.seq a s) (hPro a s + hBody a s) SeqPos.start

/-- Steps from a position until a test holds; none where it does not within the fuel. -/
def stepsTo (n : Nat) (q : Nat → Nat) (goal : SeqPos → Bool) : Nat → Nat → SeqPos → Option (Nat × SeqPos)
  | 0, _, _ => none
  | fuel + 1, k, p => if goal p then some (k, p) else if p.fin then none else stepsTo n q goal fuel (k + 1) (seqNext n (q p.w) p)

/-- Byte offset of word w within the stream's section, and of the stream's own entry: its sub-entry, or the die stream's first word (R296, R311). -/
def Stream.wordOff (t : Stream) (a w : Nat) (s : State) : Nat := t.off + t.size * w - (sect a t.sec s).1
def Stream.entOff (t : Stream) : Nat := 16 * t.place

/-- Whether a stream's PRO and BODY are those of the header (R264). -/
def streamLenOk (n : Nat) (q : Nat → Nat) (pro body : Nat) : Bool :=
  let last := q (n - 1)
  if seqEnd last && seqCount last == 0 then
    let w0 := n - 1 - seqBack last
    match stepsTo n q (fun p => decide (p.w = w0 ∧ p.rep = 0)) (pro + 1) 0 SeqPos.start with
    | none => false
    | some (k, p) =>
      match stepsTo n q (fun p => decide (p.w = n - 1 ∧ p.rep = seqRepeat last)) (body + 1) 1 p with
      | none => false
      | some (m, _) => decide (k = pro ∧ m = body)
  else
    match stepsTo n q (fun p => p.fin) (pro + 1) 0 SeqPos.start with
    | none => false
    | some (k, _) => decide (k = pro ∧ body = 0)

/-- The loops of a stream: first word, closing word, level, iterations. -/
def loopsOf (n : Nat) (q : Nat → Nat) : List (Nat × Nat × Nat × Nat) :=
  ((List.range n).filter (fun w => seqEnd (q w))).map (fun w => (w - seqBack (q w), w, seqLvl (q w), seqCount (q w)))

/-- Whether word w of a stream obeys R261, and a loop that it closes R263. -/
def loopWordOk (n : Nat) (q : Nat → Nat) (w : Nat) : Bool :=
  let v := q w
  if seqEnd v then
    let f := w - seqBack v
    decide (1 ≤ seqBack v ∧ seqBack v ≤ 191 ∧ seqBack v ≤ w) && (decide (seqCount v ≠ 0) || decide (seqLvl v = 0 ∧ w = n - 1)) &&
      (loopsOf n q).all (fun (g, u, m, _) =>
        (decide (u = w) || decide (m ≠ seqLvl v) || decide (w < g ∨ u < f)) && (!decide (m < seqLvl v ∧ g ≤ w ∧ w ≤ u) || decide (g ≤ f)))
  else decide (seqBack v = 0 ∧ seqCount v = 0 ∧ seqLvl v = 0)

-- Tables of the image ------------------------------------------------------------------------------------------

/-- The placement map of a cluster: bit u for logical unit u (R297). -/
def imgPlace (a j : Nat) (s : State) : Nat := ib a ((sect a 1 s).1 + 8 * j) 8 s

/-- Unit action entry i of the image's cluster j, and register word o of its FMT entry (R212, R296). -/
def imgUat (a j i : Nat) (s : State) : Nat := ib a ((sect a 5 s).1 + 2048 * j + 8 * i) 8 s
def imgFmt (a j o : Nat) (s : State) : Nat := ib a ((sect a 7 s).1 + 2152 * j + o) 4 s

/-- Entries of a RED or ROUTE section from an offset on: for each cluster, its listed indices and entries; none where
the section does not hold them exactly, or lists an index twice (R296, R356). `cw` is the size of a count. -/
def tabEnts (cw a : Nat) (s : State) : List Nat → Nat → Nat → Option (SMap (List (Nat × Nat)))
  | [], p, e => if p = e then some [] else none
  | c :: cs, p, e =>
    let n := ib a p cw s
    let q := p + cw + 9 * n
    if e < p + cw ∨ e < q then none
    else
      let l := (List.range n).map (fun i => (ib a (p + cw + 9 * i) 1 s, ib a (p + cw + 9 * i + 1) 8 s))
      if l.any (fun x => decide (1 < (l.filter (fun y => y.1 = x.1)).length)) then none
      else (tabEnts cw a s cs q e).map (fun m => (c, l) :: m)

/-- The reduction tables and the route tables of the image. -/
def imgRed (a : Nat) (s : State) : Option (SMap (List (Nat × Nat))) :=
  let (o, l) := sect a 6 s
  if l = 0 then some [] else tabEnts 1 a s (imgClus a s) o (o + l)
def imgRte (a : Nat) (s : State) : Option (SMap (List (Nat × Nat))) :=
  let (o, l) := sect a 0xD s
  tabEnts 2 a s (imgClus a s) o (o + l)

/-- Byte offset, within its section, of the i-th entry listed for the image's cluster c in a RED or ROUTE section (R296, R311). -/
def listedOff (cw a c i : Nat) (m : Option (SMap (List (Nat × Nat)))) (s : State) : Nat :=
  sumN (((imgClus a s).takeWhile (· ≠ c)).map (fun k => cw + 9 * (SMap.get [] (m.getD []) k).length)) + cw + 9 * i

/-- A cluster's listed entries. -/
def listed (m : Option (SMap (List (Nat × Nat)))) (c : Nat) : List (Nat × Nat) := SMap.get [] (m.getD []) c

/-- Bytes of a Stove SRAM (R245). -/
def sramSize : Nat := 4194304

/-- The claimed Stoves: region, and offset of what is loaded into its SRAM from byte 0 (R296). Each entry is a region
index and one whole SRAM image, descriptors, transfer table and contents. -/
def imgStoves (a : Nat) (s : State) : List (Nat × Nat) :=
  let (o, l) := sect a 8 s
  (List.range (l / (2 + sramSize))).map (fun i => let p := o + i * (2 + sramSize); (ib a p 2 s, p + 2))

/-- The stack extents that the image lists, and those that admission adds: its own bytes, and the source range and the
mirror area for feature MIRROR (R300, R537). -/
def imgListed (a : Nat) (s : State) : List (Nat × Nat) :=
  let (o, l) := sect a 0xA s
  (List.range (l / 16)).map (fun i => (ib a (o + 16 * i) 8 s, ib a (o + 16 * i + 8) 8 s))
def imgMirrorExt (a : Nat) (s : State) : List (Nat × Nat) :=
  if bit (hReq a s) 3 || bit (hOpt a s) 3 then [(twnSrc s, twnLen s), (twnMir s, twnLen s)] else []
def imgExtents (a : Nat) (s : State) : List (Nat × Nat) := imgListed a s ++ [(a, hLen a s)] ++ imgMirrorExt a s

/-- POWER and PANTRY fields k of region or cluster j (R298, R299). -/
def imgPower (a j k : Nat) (s : State) : Nat := ib a ((sect a 0xC s).1 + 8 * j + 2 * k) 2 s
def imgPantry (a j k : Nat) (s : State) : Nat := ib a ((sect a 9 s).1 + 8 * j + 2 * k) 2 s

-- LINK section (R466, R467) ---------------------------------------------------------------------------------------

/-- A port record: PORT, reserved byte, number of entries, RATE, and the offset of its entries. -/
structure PortRec where
  port : Nat
  rsv  : Nat
  nent : Nat
  rate : Nat
  off  : Nat
deriving DecidableEq, Repr

/-- n port records from an offset; none where they do not fill the section exactly. -/
def portRecs (a : Nat) (s : State) : Nat → Nat → Nat → Option (List PortRec)
  | 0, p, e => if p = e then some [] else none
  | k + 1, p, e =>
    let r : PortRec := { port := ib a p 1 s, rsv := ib a (p + 1) 1 s, nent := ib a (p + 2) 2 s, rate := ib a (p + 4) 4 s, off := p + 8 }
    let q := p + 8 + 16 * r.nent
    if e < p + 8 ∨ e < q then none else (portRecs a s k q e).map (fun l => r :: l)

/-- Whether the image has a LINK section, and its port records. -/
def hasLink (a : Nat) (s : State) : Bool := (dirEnts a s).any (fun e => e.type = 0xB)
def imgPorts (a : Nat) (s : State) : Option (List PortRec) :=
  let (o, l) := sect a 0xB s
  if !hasLink a s then some [] else if l < 16 then none else portRecs a s (ib a (o + 2) 1 s) (o + 16) (o + l)

/-- A byte of the LINK section's first record: 0 SPID, 4 to 7 the rectangle's X0, Y0, W and H. -/
def linkByte (a i : Nat) (s : State) : Nat := ib a ((sect a 0xB s).1 + i) 1 s

/-- Byte k, or n bytes from byte k, of schedule entry i of a port record. -/
def schedField (a : Nat) (r : PortRec) (i k n : Nat) (s : State) : Nat := ib a (r.off + 16 * i + k) n s

/-- Attachment cluster of a port code (R282, R442). -/
def portCluster (p : Nat) : Nat :=
  let (x, y) := nth (0, 0) [(127, 72), (0, 72), (68, 127), (72, 0), (76, 127), (8, 0), (120, 0), (127, 8), (127, 120), (120, 127),
    (8, 127), (0, 120), (0, 8)] p
  y * 128 + x

/-- The system pitch table entry that is valid and names a SPID (R463, R492). -/
def spaOf (spid : Nat) (s : State) : Option Nat :=
  firstBelow 16 (fun n => rb pgTop (0x140 + 8 * n) 31 s && decide (rf pgTop (0x140 + 8 * n) 7 0 s = spid))

/-- The rectangle of a system pitch: X0, Y0, W, H (R492). -/
def spaRect (n : Nat) (s : State) : Nat × Nat × Nat × Nat :=
  let w := rd pgTop (0x144 + 8 * n) s
  (getF w 16 12, getF w 21 17, getF w 5 0, getF w 11 6)

/-- Axis lengths and own coordinate (R460, R491). -/
def axisX (s : State) : Nat := rf pgTop 0x100 14 10 s + 1
def axisY (s : State) : Nat := rf pgTop 0x100 19 15 s + 1
def myX (s : State) : Nat := rf pgTop 0x100 4 0 s
def myY (s : State) : Nat := rf pgTop 0x100 9 5 s

/-- Whether coordinate v lies in w places from v0 of an axis of length l. -/
def onAxis (v v0 w l : Nat) : Bool := decide (v < l ∧ (v + l - v0 % l) % l < w)

/-- Whether a coordinate lies in a rectangle of devices. -/
def inRect (x y : Nat) (r : Nat × Nat × Nat × Nat) (s : State) : Bool :=
  onAxis x r.1 r.2.2.1 (axisX s) && onAxis y r.2.1 r.2.2.2 (axisY s)

end Sys2Proof.Machine
end

