-- ==== Sys2Proof/Machine/Checks.lean ====
section
/-! DEFINITION. The admission checks of R304, one definition for each code, in the order of the codes. A check answers
the first item that fails it. -/

namespace Sys2Proof.Machine

/-- A refusal: its code, and the section, index and byte offset of the item (R304, R311). -/
structure Refuse where
  code  : Nat
  sect  : Nat
  index : Nat
  off   : Nat
deriving DecidableEq, Repr

/-- What a check answers: nothing, or the refusal of its first failing item. -/
abbrev Check := Option Refuse

/-- A refusal when a condition holds. -/
def failIf (b : Bool) (code sec index off : Nat) : Check := if b then some ⟨code, sec, index, off⟩ else none

/-- The first failure of several checks. -/
def firstOf (l : List Check) : Check := l.findSome? id

/-- The first failure over a list's items. -/
def each {α : Type} (l : List α) (f : α → Check) : Check := l.findSome? f

/-- Whether a slot's image holds its allocations: READY to ENDED (R307, R314). -/
def Slot.allocated (x : Slot) : Bool := decide (x.st ≠ .empty ∧ x.st ≠ .checking)

/-- Slots that hold allocations. -/
def allocSlots (s : State) : List Nat := (List.range 16).filter (fun n => (slotAt n s).allocated)

/-- A sum over slots that hold allocations (R314). -/
def admSum (f : Slot → Nat) (s : State) : Nat := sumN ((allocSlots s).map (fun n => f (slotAt n s)))

/-- The image's clusters with their places in its per-cluster sections. -/
def imgIdx (a : Nat) (s : State) : List (Nat × Nat) := (imgClus a s).zipIdx

/-- Logical units that the image uses in its cluster j. -/
def usedUnits (a j : Nat) (s : State) : List Nat := (List.range 64).filter (fun u => bit (imgPlace a j s) u)

/-- The action entry of unit u in a lane word of the image's cluster j. -/
def wordAct (a j w u : Nat) (s : State) : Nat := imgUat a j (fld w (8 * u + 7) (8 * u)) s

/-- Every action entry that a used unit's action of the image's cluster j names, with the unit. -/
def usedActs (a j : Nat) (t : Stream) (s : State) : List (Nat × Nat) :=
  (t.words a s).flatMap (fun (_, w) => (usedUnits a j s).map (fun u => (u, wordAct a j w u s)))

/-- Descriptor d of the image's cluster j. -/
def imgDesc (a j d : Nat) (s : State) : Word := word (imgFmt a j (64 + 4 * d) s)

/-- Descriptors that a pair names in either recipe. -/
def pairDescs (a j p : Nat) (s : State) : List Desc := [descOf (imgDesc a j p s), descOf (imgDesc a j (p + 4) s)]

/-- Descriptors that the actions and reduction entries of the image's cluster name. -/
def namedDescs (a c j : Nat) (t : Stream) (s : State) : List Desc :=
  (((usedActs a j t s).map (·.2)).filter (fun e => uaKind e ≠ 0)).flatMap (fun e => pairDescs a j (uaDesc e) s) ++
    (listed (imgRed a s) c).flatMap (fun e => pairDescs a j (rdDesc e.2) s)

/-- Pitch clusters with their place and lane stream. -/
def imgLanes (a : Nat) (s : State) : List (Nat × Nat × Stream) :=
  ((imgIdx a s).zip (laneStrs a s)).map (fun ((c, j), t) => (c, j, t))

-- 0x01 to 0x05 ----------------------------------------------------------------------------------------------

/-- 0x01: the signature over the digest of every byte before it, by the operator key; none provisioned fails (R294,
R699). -/
def chkSignature (a : Nat) (s : State) : Check :=
  let n := hLen a s - sigLen
  failIf (s.opKey.isEmpty || !Config.mldsaVerify s.opKey (sha3 (memRead a n s)) (memRead (a + n) sigLen s)) 0x01 0 0 0

/-- Whether the pitch is a rectangle in multiples of 4 inside the die (R304, R350). -/
def pitchOk (a : Nat) (s : State) : Bool :=
  let (x, y, w, h) := (hX a s, hY a s, hW a s, hH a s)
  decide (w ≠ 0 ∧ h ≠ 0 ∧ x % 4 = 0 ∧ y % 4 = 0 ∧ w % 4 = 0 ∧ h % 4 = 0 ∧ x + w ≤ 128 ∧ y + h ≤ 128)

/-- Whether a directory entry lies inside the image before its signature and overlaps no other (R296). -/
def dirOk (a : Nat) (s : State) (i : Nat) : Bool :=
  let e := dirEnt a s i
  if e.type = 0 then decide (e.rsv = 0 ∧ e.len = 0 ∧ e.off = 0)
  else decide (512 ≤ e.off ∧ e.off + e.len ≤ hLen a s - sigLen) && (List.range 16).all (fun k =>
    let f := dirEnt a s k
    decide (k = i ∨ f.type = 0 ∨ e.off + e.len ≤ f.off ∨ f.off + f.len ≤ e.off))

/-- 0x02: header values (R295). -/
def chkHeader (a : Nat) (s : State) : Check :=
  let bad (b : Bool) (off : Nat) : Check := failIf b 0x02 0 0 off
  firstOf [bad (ib a 0 4 s ≠ 0x48435953) 0, bad (ib a 4 2 s ≠ 1) 4, bad (!decide (1 ≤ hSlack a s ∧ hSlack a s ≤ 64)) 0x0A,
    bad (!decide (8 ≤ hWindow a s ∧ hWindow a s ≤ 64)) 0x0B, bad (1 < hEgress a s) 0x0C, bad (hPlanes a s % 4 = 0) 0x0D,
    bad (!decide (1 ≤ hLayers a s ∧ hLayers a s ≤ 256)) 0x0E, bad (!decide (512 + sigLen ≤ hLen a s ∧ a + hLen a s ≤ mapTop)) 0x20,
    bad (2 ^ 48 ≤ hPro a s) 0x28, bad (2 ^ 48 ≤ hBody a s) 0x30, bad (!pitchOk a s) 0x38,
    bad (!decide (1 ≤ hSlots a s ∧ hSlots a s ≤ 1024)) 0x40,
    each (List.range 16) (fun i => bad (!dirOk a s i) (0x100 + 16 * i))]

/-- 0x03 and 0x04: LEVEL and MINGEN. -/
def chkLevel (a : Nat) (s : State) : Check := failIf (ib a 0x08 1 s ≠ 1) 0x03 0 0 0x08
def chkGen (a : Nat) (s : State) : Check := failIf (1 < ib a 0x09 1 s) 0x04 0 0 0x09

/-- The features that the image uses (R301). The place of a Stove operation's sr enable is not in the spec, so it adds
none. -/
def usedFeats (a : Nat) (s : State) : Nat :=
  let d := dieStr a s
  let descs := (imgLanes a s).flatMap (fun (c, j, t) => namedDescs a c j t s)
  let ents := ((imgPorts a s).getD []).flatMap (fun r => (List.range r.nent).map (fun i => schedField a r i 3 1 s))
  let resid := (imgIdx a s).any (fun (c, _) => (listed (imgRed a s) c).any (fun e => rdResid e.2))
  b2n (bit (hPlanes a s) 2) + 2 * b2n (descs.any (·.split)) + 4 * b2n (hEgress a s == 1) +
    8 * b2n (hMirror a s != 0 || (d.words a s).any (fun w => bit w.2 74)) +
    16 * b2n ((d.words a s).any (fun w => (linkActions w.2).any (fun l => decide (5 ≤ l.1 ∧ l.1 ≤ 12)))) +
    32 * b2n (hWide a s != 0) + 64 * b2n (descs.any (fun x => x.alnSr || x.outSr) || resid || ents.any (fun n => n == 2 || n == 3)) +
    128 * b2n (hasLink a s && decide (1 < linkByte a 6 s * linkByte a 7 s))

/-- 0x05: R302. -/
def chkFeature (a : Nat) (s : State) : Check :=
  let have_ := Nat.lor (hReq a s) (hOpt a s)
  failIf (hReq a s / 256 ≠ 0 || (List.range 8).any (fun i => bit (usedFeats a s) i && !bit have_ i)) 0x05 0 0 0x10

-- 0x06 RESERVED (R303) ----------------------------------------------------------------------------------------

/-- Reserved header bytes and directory bytes. -/
def chkRsvHeader (a : Nat) (s : State) : Check :=
  let bad (off n : Nat) : Check := failIf (nonZero (memRead (a + off) n s)) 0x06 0 0 off
  firstOf [bad 0x006 2, failIf (7 < hPlanes a s) 0x06 0 0 0x0D, bad 0x042 2, bad 0x068 24, bad 0x0E0 32,
    each (List.range 16) (fun i => bad (0x102 + 16 * i) 2)]

/-- Reserved bits and codes of a die word (R275, R276, R281, R282). The PORT codes 0xD to 0xF are reserved whatever VALID holds (R303). -/
def dieRsv (w : Nat) : Bool :=
  let eg := fld w 67 66
  bit w 31 || fld w 79 77 ≠ 0 || fld w 255 144 ≠ 0 || eg = 3 || 40 < fld w 73 68 || (eg < 2 && fld w 73 68 ≠ 0) ||
    fld w 76 75 = 3 || (List.range 4).any (fun i => bit w (95 + 16 * i) || decide (12 < fld w (83 + 16 * i) (80 + 16 * i)))

/-- Reserved bits of a region word: also every bit of a slot or of XFER whose VALID is 0 (R271). -/
def rgnRsv (w : Nat) : Bool :=
  bit w 31 || fld w 95 89 ≠ 0 || fld w 127 96 ≠ 0 || (!bit w 88 && fld w 87 80 ≠ 0) ||
    (List.range 4).any (fun i => !bit w (54 + 8 * i) && fld w (55 + 8 * i) (48 + 8 * i) ≠ 0)

/-- Reserved bits and codes of a lane word (R267). -/
def laneRsv (w : Nat) : Bool := bit w 543 || fld w 575 572 ≠ 0 || fld w 562 560 = 7

/-- Reserved bits of FMT registers, register by register: the byte offset of the first that holds one (R114, R140, R146, R303). -/
def fmtRsv (a j : Nat) (s : State) : Option Nat :=
  let tabs := (List.range 8).map (fun n => let f := imgFmt a j (8 * n) s; (8 * n, fld f 31 28 ≠ 0 || bit f 23 || fld f 15 0 ≠ 0))
  let descs := (List.range 8).map (fun n => let d := imgFmt a j (64 + 4 * n) s; (64 + 4 * n, bit d 23 || fld d 7 6 ≠ 0 || fld d 3 2 ≠ 0))
  let heads := (List.range 2).map (fun n => (96 + 4 * n, decide (fld (imgFmt a j (96 + 4 * n) s) 31 16 ≠ 0)))
  ((tabs ++ descs ++ heads).find? (·.2)).map (·.1)

/-- Reserved and out-of-range values of schedule entry i of a port record (R467). -/
def schedRsv (a : Nat) (r : PortRec) (i : Nat) (s : State) : Bool :=
  let f (k n : Nat) : Nat := schedField a r i k n s
  let eth := decide (5 ≤ r.port)
  let kind := fld (f 8 2) 13 10
  16383 < f 0 2 || f 2 1 = 0 || 64 < f 2 1 || ((kind = 1 || kind = 2) && f 2 1 % 4 ≠ 0) || 3 < f 3 1 ||
    (eth && 4095 < f 4 2) || (!eth && 1023 < f 4 2) || 16383 < f 6 2 || 3 < kind || 16383 < f 8 2 ||
    fld (f 10 1) 6 3 ≠ 0 || f 10 1 % 8 = 7 || 5 < f 11 1 || (!eth && (f 11 1 ≠ 0 || f 12 1 ≠ 0)) || f 13 3 ≠ 0

/-- Byte offset of a port record within the LINK section, and of its schedule entry i (R311, R466). -/
def recOff (a : Nat) (r : PortRec) (s : State) : Nat := r.off - 8 - (sect a 0xB s).1
def schedOff (a : Nat) (r : PortRec) (i : Nat) (s : State) : Nat := recOff a r s + 8 + 16 * i

/-- Reserved and out-of-range values of a LINK section (R466, R467). -/
def chkRsvLink (a : Nat) (s : State) : Check :=
  if !hasLink a s then none
  else
    firstOf [failIf (linkByte a 1 s ≠ 0) 0x06 0xB 0 1, failIf (linkByte a 3 s ≠ 0) 0x06 0xB 0 3,
      failIf (nonZero (memRead (a + (sect a 0xB s).1 + 8) 8 s)) 0x06 0xB 0 8,
      each ((imgPorts a s).getD []) (fun r =>
        firstOf [failIf (r.rsv ≠ 0 || 12 < r.port || r.nent = 0 || 1024 < r.nent) 0x06 0xB r.port (recOff a r s),
          each (List.range r.nent) (fun i => failIf (schedRsv a r i s) 0x06 0xB r.port (schedOff a r i s))])]

/-- Byte offset, within the STOVE section, of byte k of a claimed Stove's SRAM image at offset o (R296, R311). -/
def stoveOff (a o k : Nat) (s : State) : Nat := o + k - (sect a 8 s).1

/-- 0x06: every reserved header byte, stream-word bit and code, and the fields of R303. -/
def chkReserved (a : Nat) (s : State) : Check :=
  firstOf [chkRsvHeader a s,
    each ((dieStr a s).words a s) (fun (i, w) => failIf (dieRsv w) 0x06 2 i (32 * i)),
    each (rgnStrs a s) (fun t => each (t.words a s) (fun (i, w) => failIf (rgnRsv w) 0x06 3 t.idx (t.wordOff a i s))),
    each (laneStrs a s) (fun t => each (t.words a s) (fun (i, w) => failIf (laneRsv w) 0x06 4 t.idx (t.wordOff a i s))),
    each (imgIdx a s) (fun (c, j) => each (List.range 256) (fun i =>
      failIf (fld (imgUat a j i s) 63 34 ≠ 0) 0x06 5 c (2048 * j + 8 * i))),
    each (imgIdx a s) (fun (c, j) => (fmtRsv a j s).bind (fun o => some ⟨0x06, 7, c, 2152 * j + o⟩)),
    each (imgStoves a s) (fun (r, o) => each (List.range 256) (fun i =>
      failIf (ib a (o + 0x800 + 32 * i + 5) 3 s ≠ 0) 0x06 8 r (stoveOff a o (0x800 + 32 * i) s))),
    each (imgListed a s).zipIdx (fun (e, i) => failIf (2 ^ 40 ≤ e.1) 0x06 0xA i (16 * i)),
    chkRsvLink a s]

-- 0x07 SECTION ------------------------------------------------------------------------------------------------

/-- The required sections (R296). -/
def required : List Nat := [1, 2, 3, 4, 5, 7, 9, 0xC, 0xD]

/-- Whether the sub-entries of a REGION or LANE section name what they must, in order, and their words lie inside it. -/
def subsOk (a t size : Nat) (keys : List Nat) (s : State) : Bool :=
  let (o, l) := sect a t s
  decide (16 * keys.length ≤ l) && keys.zipIdx.all (fun (k, j) =>
    let e := subEnt a t j s
    decide (e.idx = k ∧ e.rsv = 0 ∧ o + 16 * keys.length ≤ e.off ∧ e.off + size * e.n ≤ o + l))

/-- 0x07: a required section missing or duplicated, a reserved type, or a malformed sub-entry. Of an optional section that the directory names
twice the first counts (DESIGN CHOICE, log 103). -/
def chkSection (a : Nat) (s : State) : Check :=
  let n := (imgClus a s).length
  let m := (imgRgns a s).length
  let len (t k : Nat) : Check := failIf ((sect a t s).2 ≠ k) 0x07 t 0 0
  firstOf [each (dirEnts a s) (fun e => failIf (0xD < e.type) 0x07 e.type 0 0),
    each required (fun t => failIf (((dirEnts a s).filter (fun e => e.type = t)).length ≠ 1) 0x07 t 0 0),
    len 1 (8 * n), failIf ((sect a 2 s).2 % 32 ≠ 0) 0x07 2 0 0, failIf (!subsOk a 3 16 (imgRgns a s) s) 0x07 3 0 0,
    failIf (!subsOk a 4 72 (imgClus a s) s) 0x07 4 0 0, len 5 (2048 * n), failIf (imgRed a s).isNone 0x07 6 0 0, len 7 (2152 * n),
    failIf ((sect a 8 s).2 % (2 + sramSize) ≠ 0) 0x07 8 0 0,
    each (imgStoves a s) (fun (r, o) =>
      failIf (63 < r || 1 < ((imgStoves a s).filter (fun e => e.1 = r)).length) 0x07 8 r (o - 2 - (sect a 8 s).1)),
    len 9 (8 * n), each (imgIdx a s) (fun (c, j) => failIf (imgPantry a j 3 s ≠ 0) 0x07 9 c (8 * j)),
    failIf ((sect a 0xA s).2 % 16 ≠ 0) 0x07 0xA 0 0, failIf (imgPorts a s).isNone 0x07 0xB 0 0, len 0xC (8 * m),
    each (imgRgns a s).zipIdx (fun (r, j) => failIf (imgPower a j 3 s ≠ 0) 0x07 0xC r (8 * j)),
    failIf (imgRte a s).isNone 0x07 0xD 0 0]

-- 0x09 to 0x0D -------------------------------------------------------------------------------------------------

/-- Whether block b of region r lies inside the image's pitch (R271, R274). -/
def blockInside (a r b : Nat) (s : State) : Bool :=
  let x := r % 8 * 16 + b % 4 * 4
  let y := r / 8 * 16 + b / 4 * 4
  decide (hX a s ≤ x ∧ x < hX a s + hW a s ∧ hY a s ≤ y ∧ y < hY a s + hH a s)

/-- 0x09: the pitch overlaps an admitted one, or a region word grants a gap outside it (R274). -/
def chkPitch (a : Nat) (s : State) : Check :=
  firstOf [each (allocSlots s) (fun n =>
      let x := slotAt n s
      failIf (hX a s < x.px0 + x.pw && x.px0 < hX a s + hW a s && hY a s < x.py0 + x.ph && x.py0 < hY a s + hH a s) 0x09 0 n 0x38),
    each (rgnStrs a s) (fun t => each (t.words a s) (fun (i, w) =>
      failIf ((List.range 16).any (fun b => bit w (32 + b) && !blockInside a t.idx b s)) 0x09 3 t.idx (t.wordOff a i s)))]

/-- All streams of the image. -/
def allStreams (a : Nat) (s : State) : List Stream := dieStr a s :: (rgnStrs a s ++ laneStrs a s)

/-- 0x0A: R264, or no word. -/
def chkStreamLen (a : Nat) (s : State) : Check :=
  each (allStreams a s) (fun t => failIf (t.n = 0 || !streamLenOk t.n (t.seq a s) (hPro a s) (hBody a s)) 0x0A t.sec t.idx t.entOff)

/-- 0x0B: R261 or R263. -/
def chkLoop (a : Nat) (s : State) : Check := each (allStreams a s) (fun t => each (List.range t.n) (fun w =>
  failIf (!loopWordOk t.n (t.seq a s) w) 0x0B t.sec t.idx (t.wordOff a w s)))

/-- 0x0C: a lane loop body of more than 192 words (R265). -/
def chkLaneStore (a : Nat) (s : State) : Check :=
  each (laneStrs a s) (fun t => each (loopsOf t.n (t.seq a s)) (fun (f, w, _, _) =>
    failIf (192 < w + 1 - f) 0x0C 4 t.idx (t.wordOff a w s)))

/-- Whether a cluster acts, in a lane word, under a descriptor of one of some layers. -/
def actsUnder (a c j w : Nat) (layers : List Nat) (s : State) : Bool :=
  ((usedUnits a j s).any (fun u =>
    let e := wordAct a j w u s
    decide (uaKind e ≠ 0) && (pairDescs a j (uaDesc e) s).any (fun d => layers.contains d.layer))) ||
  (laneArms w).any (fun r => (listed (imgRed a s) c).any (fun e => decide (e.1 = r) &&
    (pairDescs a j (rdDesc e.2) s).any (fun d => layers.contains d.layer)))

/-- 0x0D: a lane word lacks GATE at an epoch gate, or at a mark of a layer it acts under. -/
def chkGate (a : Nat) (s : State) : Check :=
  let die := (dieStr a s).expand a s
  each (imgLanes a s) (fun (c, j, t) =>
    each (die.zip (t.expand a s)) (fun (dw, lw) =>
      let d := (dieStr a s).word a dw s
      let w := t.word a lw s
      failIf (!bit w 551 && (fld d 67 66 ≠ 0 || actsUnder a c j w (markLayers d) s)) 0x0D 4 c (t.wordOff a lw s)))

-- 0x0E to 0x13 ----------------------------------------------------------------------------------------------------

/-- 0x0E: a used unit is fenced with no spare in its place. -/
def chkUnits (a : Nat) (s : State) : Check :=
  each (imgIdx a s) (fun (c, j) => each (usedUnits a j s) (fun u =>
    failIf (match physOf c u s with
      | none => true
      | some k => (unitAt c k s).fenced) 0x0E 1 c (8 * j)))

/-- Whether plane p of a logical unit is RESIDENT under a model's digest (R432). -/
def residentUnder (c u p : Nat) (model : List Byte) (s : State) : Bool :=
  !claimed (upKey c u p) s && (match physOf c u s with
    | none => false
    | some k => decide (((unitAt c k s).plane p).st = .resident)) &&
  (match recOf (upKey c u p) s with
    | none => false
    | some n => decide ((SMap.get ResRec.free s.resrecs n).digest.take 16 = model))

/-- 0x0F: a declared plane with a model is not RESIDENT under it on every used unit (R295, R433). -/
def chkResident (a : Nat) (s : State) : Check :=
  each (imgIdx a s) (fun (c, j) => each (usedUnits a j s) (fun u => each [0, 1] (fun p =>
    failIf (bit (hPlanes a s) p && nonZero (hModel a p s) && !residentUnder c u p (hModel a p s) s) 0x0F 1 c (8 * j))))

/-- UNIT_PLCFG.JOIN of the slot that serves a logical unit. -/
def joinOf (c u : Nat) (s : State) : Bool :=
  match physOf c u s with
  | none => false
  | some k => rb (.unit c k) 0x80C 0 s

/-- 0x10: JOIN differs from a used unit's, or a joined unit's action names TAG (R48). -/
def chkJoin (a : Nat) (s : State) : Check :=
  let join := bit (hPlanes a s) 2
  each (imgLanes a s) (fun (c, j, t) =>
    firstOf [each (usedUnits a j s) (fun u => failIf (joinOf c u s != join) 0x10 1 c (8 * j)),
      each (t.words a s) (fun (_, w) => each (usedUnits a j s) (fun u =>
        let e := wordAct a j w u s
        failIf (join && decide (uaKind e = 1 ∧ uaPlane e = 0)) 0x10 5 c (2048 * j + 8 * fld w (8 * u + 7) (8 * u))))])

/-- Pantry lines that four output blocks under a pair may take: eight where a variant that its layer has leaves P24, the wide one only where the
header's WIDE names the layer (R140, R226, R295). -/
def outLines (a j p : Nat) (s : State) : Nat :=
  let n := descOf (imgDesc a j p s)
  let w := descOf (imgDesc a j (p + 4) s)
  if n.owidth = 0 ∨ (bit (hWide a s) w.layer ∧ w.owidth = 0) then 8 else 4

/-- Whether the unused bits of a DADDR are zero (R212). -/
def daddrOk (dest d : Nat) : Bool :=
  match dest with
  | 0 => decide (d = 0)
  | 1 => decide (d < 32)
  | 2 => decide (d < 512)
  | 3 => decide (d < 64)
  | 4 => decide (d < 256)
  | _ => false

/-- Whether a unit action entry obeys R213. A FORWARD writes blocks whose widths the table does not tell: four lines
are taken. -/
def uatOk (a j e : Nat) (s : State) : Bool :=
  decide (uaKind e ≠ 3 ∧ uaInsrc e ≠ 3) && daddrOk (uaDest e) (uaDaddr e) && !decide (uaKind e = 2 ∧ uaDest e = 1) &&
    !decide (uaInsrc e = 0 ∧ 508 < uaInline e) &&
    !decide (uaDest e = 2 ∧ 512 < uaDaddr e + (if uaKind e = 1 then outLines a j (uaDesc e) s else 4))

/-- 0x11: R213. -/
def chkUat (a : Nat) (s : State) : Check :=
  each (imgIdx a s) (fun (c, j) => each (List.range 256) (fun i => failIf (!uatOk a j (imgUat a j i s) s) 0x11 5 c (2048 * j + 8 * i)))

/-- Whether a reduction entry of index i obeys R218. Its residual is four blocks of two lines each (R219, R226). -/
def redOk (a j i e : Nat) (s : State) : Bool :=
  decide (i < 32 ∧ rdUnits e ≤ 8 ∧ rdRems e ≤ 4 ∧ rdUnits e + rdRems e + b2n (rdRin e) ≠ 0 ∧ fld e 63 35 = 0) &&
    daddrOk (rdDest e) (rdDaddr e) && !decide (rdDest e = 1 ∧ rdDaddr e = i) && !(rdRin e && decide (504 < rdRline e)) &&
    !decide (rdDest e = 2 ∧ 512 < rdDaddr e + outLines a j (rdDesc e) s)

/-- 0x12: R218, or an arming run beyond entry 31 or over an entry not listed (R268). -/
def chkRed (a : Nat) (s : State) : Check :=
  each (imgLanes a s) (fun (c, j, t) =>
    let l := listed (imgRed a s) c
    firstOf [each l.zipIdx (fun ((i, e), k) => failIf (!redOk a j i e s) 0x12 6 c (listedOff 1 a c k (imgRed a s) s)),
      each (t.words a s) (fun (w, v) => failIf ((laneArms v).any (fun r => !l.any (fun e => e.1 = r))) 0x12 4 c (t.wordOff a w s))])

/-- Whether a descriptor's codes are none of the reserved ones (R141). -/
def descOk (w : Nat) : Bool :=
  decide (fld w 21 20 < 2 ∧ fld w 19 18 < 3 ∧ fld w 17 16 < 2 ∧ fld w 5 4 < 2 ∧ fld w 1 0 < 3)

/-- Whether a format table's codes lie in their ranges (R114, R115). -/
def fmtOk (fa fb : Nat) : Bool :=
  decide (fld fa 22 20 ≠ 7) && (List.range 4).all (fun i => decide ((sx 8 (fld fb (8 * i + 7) (8 * i))).natAbs ≤ 30))

/-- The format tables that the used planes of the image's cluster name (R113). -/
def planeFmts (a c j : Nat) (s : State) : List Nat :=
  (usedUnits a j s).flatMap (fun u =>
    match physOf c u s with
    | none => []
    | some k =>
      let w := rd (.unit c k) 0x80C s
      (if bit (hPlanes a s) 0 then [getF w 6 4] else []) ++ (if bit (hPlanes a s) 1 then [getF w 10 8] else []))

/-- 0x13: a table that a used plane names differs from the one in force, or R141 or a table's range is broken. -/
def chkFormat (a : Nat) (s : State) : Check :=
  each (imgIdx a s) (fun (c, j) =>
    firstOf [each (List.range 8) (fun n => failIf (!fmtOk (imgFmt a j (8 * n) s) (imgFmt a j (8 * n + 4) s)) 0x13 7 c (2152 * j + 8 * n)),
      each (List.range 8) (fun n => failIf (!descOk (imgFmt a j (64 + 4 * n) s)) 0x13 7 c (2152 * j + 64 + 4 * n)),
      each (planeFmts a c j s) (fun n =>
        failIf (imgFmt a j (8 * n) s ≠ (rd (.clu c) (0x1C0 + 8 * n) s).toNat ||
          imgFmt a j (8 * n + 4) s ≠ (rd (.clu c) (0x1C4 + 8 * n) s).toNat) 0x13 7 c (2152 * j + 8 * n))])

-- 0x14 to 0x17 ---------------------------------------------------------------------------------------------------

/-- Whether a transfer table entry that is not all zero obeys R273. -/
def xferOk (b : List Byte) : Bool :=
  let dir := leAt b 12 1
  let len := leAt b 8 4
  !nonZero b ||
    (decide (dir ≤ 3 ∧ len % 64 = 0 ∧ 64 ≤ len ∧ len ≤ sramSize ∧ fld (leAt b 13 1) 6 3 = 0 ∧ leAt b 13 1 % 8 ≠ 7) &&
      !nonZero (slice b 18 14) && (decide (dir < 2) || decide (leAt b 14 2 = 0 ∧ 0x120 ≤ leAt b 16 2)) &&
      (decide (2 ≤ dir) || decide (leAt b 14 2 < 16384 ∧ leAt b 16 2 + len / 64 ≤ 512)))

/-- 0x14: R245, R273 or R274. Where the parameters of an operation stand in its descriptor is not in the spec: whether they lie outside their
limits is a free value of the code and the other bytes (log 99). -/
def chkStove (a : Nat) (s : State) : Check :=
  firstOf [each (imgStoves a s) (fun (r, o) =>
      firstOf [failIf ((allocSlots s).any (fun n => (slotAt n s).stoves.contains r)) 0x14 8 r (o - 2 - (sect a 8 s).1),
        each (List.range 64) (fun d =>
          let code := ib a (o + 32 * d) 1 s
          failIf (0x0B < code || (code ≠ 0 && !Config.stvFits code (memRead (a + o + 32 * d + 1) 31 s))) 0x14 8 r (stoveOff a o (32 * d) s)),
        each (List.range 256) (fun i => failIf (!xferOk (memRead (a + o + 0x800 + 32 * i) 32 s)) 0x14 8 r (stoveOff a o (0x800 + 32 * i) s))]),
    each (rgnStrs a s) (fun t => if (imgStoves a s).any (fun e => e.1 = t.idx) then none
      else each (t.words a s) (fun (i, w) => failIf (fld w 88 48 ≠ 0) 0x14 3 t.idx (t.wordOff a i s)))]

/-- Whether a cluster lies in the image's pitch. -/
def imgInside (a c : Nat) (s : State) : Bool :=
  let x := c % 128
  let y := c / 128
  decide (hX a s ≤ x ∧ x < hX a s + hW a s ∧ hY a s ≤ y ∧ y < hY a s + hH a s)

/-- Whether a route entry obeys R352, R354 and R355. -/
def rteOk (a e : Nat) (s : State) : Bool :=
  let tgt := fld e 4 2
  let multi := decide (fld e 1 0 = 2)
  let c := fld e 29 23 * 128 + fld e 22 16
  !bit e 15 && decide (fld e 63 44 = 0) &&
  (match fld e 1 0 with
   | 0 => true
   | 3 => false
   | _ =>
     decide (tgt ≤ 4) && (multi || decide (fld e 43 30 = 0)) && !(multi && decide (3 ≤ tgt)) &&
     decide ((fld e 36 30 + 1) * (fld e 43 37 + 1) ≤ 256 ∧ fld e 22 16 + fld e 36 30 < 128 ∧ fld e 29 23 + fld e 43 37 < 128) &&
     (match tgt with
      | 3 => (imgStoves a s).any (fun x => decide (stoveCluster x.1 = c))
      | 4 => decide (fld e 14 9 = 0) && ((imgPorts a s).getD []).any (fun r => decide (r.port = fld e 8 5 ∧ portCluster r.port = c))
      | _ => (routeTargets e).all (fun t => imgInside a t s)))

/-- Whether an index names a used route entry of a cluster. -/
def rteUsed (l : List (Nat × Nat)) (i : Nat) : Bool := l.any (fun e => decide (e.1 = i ∧ fld e.2 1 0 ≠ 0))

/-- Whether the LINK section's rectangle is the one of a valid system pitch that holds the device, and wraps only where
it spans an axis (R462, R466). -/
def linkRectOk (a : Nat) (s : State) : Bool :=
  let r := (linkByte a 4 s, linkByte a 5 s, linkByte a 6 s, linkByte a 7 s)
  (match spaOf (linkByte a 0 s) s with
   | none => false
   | some n => decide (spaRect n s = r)) &&
  inRect (myX s) (myY s) r s && decide (r.2.2.1 = axisX s ∨ r.1 + r.2.2.1 ≤ axisX s) && decide (r.2.2.2 = axisY s ∨ r.2.1 + r.2.2.2 ≤ axisY s)

/-- 0x15: route entries, DADDR and TOKRT names, and link destinations (R352, R355, R462, R466). -/
def chkRoute (a : Nat) (s : State) : Check :=
  let ports := (imgPorts a s).getD []
  let rect := (linkByte a 4 s, linkByte a 5 s, linkByte a 6 s, linkByte a 7 s)
  firstOf [each (imgLanes a s) (fun (c, j, t) =>
      let l := listed (imgRte a s) c
      firstOf [each l.zipIdx (fun ((_, e), k) => failIf (!rteOk a e s) 0x15 0xD c (listedOff 2 a c k (imgRte a s) s)),
        each (List.range 256) (fun i => let e := imgUat a j i s
          failIf (uaKind e ≠ 0 && uaDest e = 4 && !rteUsed l (uaDaddr e)) 0x15 5 c (2048 * j + 8 * i)),
        each (listed (imgRed a s) c).zipIdx (fun ((_, e), k) =>
          failIf (rdDest e = 4 && !rteUsed l (rdDaddr e)) 0x15 6 c (listedOff 1 a c k (imgRed a s) s)),
        each (t.words a s) (fun (w, v) => failIf (bit v 563 &&
          (!rteUsed l (fld v 559 552) || l.any (fun e => decide (e.1 = fld v 559 552) && (routeTargets e.2).any (fun k => !imgInside a k s))))
          0x15 4 c (t.wordOff a w s))]),
    failIf (hasLink a s && !linkRectOk a s) 0x15 0xB 0 0,
    each ports (fun r => if 5 ≤ r.port then none else each (List.range r.nent) (fun i =>
      let d := schedField a r i 4 2 s
      failIf (!inRect (fld d 4 0) (fld d 9 5) rect s) 0x15 0xB r.port (schedOff a r i s))),
    each ((dieStr a s).words a s) (fun (i, w) => failIf ((linkActions w).any (fun l =>
      !ports.any (fun r => decide (r.port = l.1 ∧ l.2 < r.nent)))) 0x15 2 i (32 * i))]

/-- Whether a run of lines keeps clear of the ring: below RINGBASE, or from STATEBASE on (R227). -/
def clearOfRing (ring state line n : Nat) : Bool := decide (line + n ≤ ring ∨ state ≤ line)

/-- 0x16: RINGBASE, STATEBASE or a table's PANTRY address against R227. -/
def chkPantry (a : Nat) (s : State) : Check :=
  each (imgIdx a s) (fun (c, j) =>
    let ring := imgPantry a j 0 s
    let st := imgPantry a j 1 s
    firstOf [failIf (511 < ring || 511 < st || st < ring) 0x16 9 c (8 * j),
      each (List.range 256) (fun i => let e := imgUat a j i s
        failIf (uaKind e ≠ 0 && ((uaInsrc e = 0 && !clearOfRing ring st (uaInline e) 4) ||
          (uaDest e = 2 && !clearOfRing ring st (uaDaddr e) (if uaKind e = 1 then outLines a j (uaDesc e) s else 4)))) 0x16 5 c (2048 * j + 8 * i)),
      each (listed (imgRed a s) c).zipIdx (fun ((_, e), k) =>
        failIf ((rdRin e && !clearOfRing ring st (rdRline e) 8) ||
          (rdDest e = 2 && !clearOfRing ring st (rdDaddr e) (outLines a j (rdDesc e) s))) 0x16 6 c (listedOff 1 a c k (imgRed a s) s))])

/-- 0x17: the ring is too small, or the window too short for early egress. -/
def chkReplay (a : Nat) (s : State) : Check :=
  firstOf [each (imgIdx a s) (fun (c, j) =>
      failIf (imgPantry a j 1 s - imgPantry a j 0 s < hWindow a s * imgPantry a j 2 s) 0x17 9 c (8 * j)),
    failIf (hEgress a s = 1 && hWindow a s < hSlack a s + 8) 0x17 0 0 0x0B]

-- 0x18 to 0x1F -----------------------------------------------------------------------------------------------------

/-- The addresses that reach the system area (R377). -/
def sysRanges (s : State) : List (Nat × Nat) :=
  [if interleaved 2 s then (0x6A00000000, 0x200000000) else (0x5980000000, 0x80000000),
   if interleaved 4 s then (0xB200000000, 0x200000000) else (0xB380000000, 0x80000000)]

/-- Whether two ranges overlap. -/
def overlap (x y : Nat × Nat) : Bool := decide (x.1 < y.1 + y.2 ∧ y.1 < x.1 + x.2)

/-- Extents of a slot that count in the overlap test: for a MIRROR image against another, not the pair's ranges
(R537). -/
def otherExtents (mirror : Bool) (n : Nat) (s : State) : List (Nat × Nat) :=
  let x := slotAt n s
  if mirror && bit x.feat 3 then x.extents.filter (fun e => e ≠ (twnSrc s, twnLen s) ∧ e ≠ (twnMir s, twnLen s)) else x.extents

/-- Whether an extent has bytes on a stack (R375). -/
def onStack (n : Nat) (e : Nat × Nat) (s : State) : Bool :=
  let near := n / 4 * groupSize + n % 4 * stackSize
  if interleaved (n / 4) s then
    let g := n / 4 * groupSize
    overlap e (g, groupSize) && (List.range 4).any (fun i =>
      let p := max e.1 g / 256 + i
      decide ((p - g / 256) % 4 = n % 4 ∧ p * 256 < min (e.1 + e.2) (g + groupSize)))
  else overlap e (near, stackSize)

/-- Whether the extents that a controller would hold exceed 256 (R385). -/
def extentsFull (n a : Nat) (s : State) : Bool :=
  decide (256 < ((imgExtents a s ++ (allocSlots s).flatMap (fun k => (slotAt k s).extents)).filter (fun e => onStack n e s)).length)

/-- 0x18: R300, more extents than a controller holds (R385), an overlap with another image's extent, or a fenced stack. -/
def chkStack (a : Nat) (s : State) : Check :=
  let pair := imgMirrorExt a s
  each ((imgListed a s ++ [(a, hLen a s)]).zipIdx ++ pair.map (fun e => (e, 0xFFFF))) (fun (e, i) =>
    let bad := mapTop < e.1 + e.2 || (sysRanges s).any (overlap e) || rangeFenced e.1 e.2 s ||
      (allocSlots s).any (fun n => (otherExtents (!pair.isEmpty) n s).any (overlap e) && !(decide (i = 0xFFFF) && bit (slotAt n s).feat 3))
    failIf bad 0x18 0xA i (16 * i)) <|> failIf ((List.range 20).any (fun n => extentsFull n a s)) 0x18 0xA 0 0

/-- Capacity of a port in 0.1 GB/s, 0 while it is down (R472). -/
def portCapacity (p : Nat) (s : State) : Nat :=
  if p < 5 then
    let st := rf (pgRlp p) 0x104 2 0 s
    let c := if st = 3 then 4000 else if st = 4 then 2000 else 0
    if p = 4 then c - admSum (·.mirBw) s else c
  else 980

/-- 0x19: a port is down or its declared rates exceed its capacity. -/
def chkLink (a : Nat) (s : State) : Check :=
  each ((imgPorts a s).getD []) (fun r =>
    let c := portCapacity r.port s
    failIf (c = 0 || c < r.rate + admSum (fun x => SMap.get 0 x.rates r.port) s) 0x19 0xB r.port (recOff a r s))

/-- 0x1A: the mirror bandwidth, an MCOMMIT without feature MIRROR (R280), or no partner formed (R539). -/
def chkMirror (a : Nat) (s : State) : Check :=
  let has := bit (hReq a s) 3 || bit (hOpt a s) 3
  let uses := bit (usedFeats a s) 3
  failIf (4000 < hMirror a s + admSum (·.mirBw) s || (uses && !has) || ((uses || bit (hReq a s) 3) && twnState s ≠ 3)) 0x1A 0 0 0x44

/-- 0x1B: an initial recipe is reserved or has no wide variant, or R278. -/
def chkRecipe (a : Nat) (s : State) : Check :=
  firstOf [each (List.range 256) (fun l => failIf (1 < hRcp a l s || (hRcp a l s = 1 && !bit (hWide a s) l)) 0x1B 0 l (0x80 + l / 4)),
    each ((dieStr a s).words a s) (fun (i, w) =>
      let l := markLayers w
      failIf (l.any (fun x => hLayers a s ≤ x || 1 < (l.filter (· == x)).length)) 0x1B 2 i (32 * i))]

/-- Steps in which a test holds, over the prologue and then enough bodies for 64 more of them; none where a forever body holds no such step, so
that some window of a schedule without end has none (R181). -/
def gapSteps (pro body : Nat) (l : List Bool) : Option (List Nat) :=
  let at_ := (l.zipIdx.filter (·.1)).map (·.2)
  let p := at_.filter (· < pro)
  let b := at_.filter (pro ≤ ·)
  if body = 0 then some p
  else if b.isEmpty then none
  else some (p ++ (List.range (64 / b.length + 3)).flatMap (fun k => b.map (· + k * body)))

/-- Whether every 2^20 consecutive steps of a schedule hold at least 64 of the given steps (R181): the first window
does, and so does the window after each of them. `last` is the schedule's length where it ends. -/
def gapsOk (g : List Nat) (last : Option Nat) : Bool :=
  let w := 2 ^ 20
  let fits (start : Nat) : Bool := match last with
    | none => true
    | some n => decide (start + w ≤ n)
  let within (i start : Nat) : Bool := match g[i]? with
    | none => false
    | some x => decide (x < start + w)
  (!fits 0 || within 63 0) && (g.zipIdx.take (g.length - 64 + (if last.isSome then 64 else 0))).all (fun (x, i) =>
    !fits (x + 1) || within (i + 64) (x + 1))

/-- Whether programming is held after a die word reached with it held or open (R281). -/
def heldAfter (held : Bool) (w : Nat) : Bool := if fld w 76 75 = 1 then true else if fld w 76 75 = 2 then false else held

/-- The longest run of steps with programming held over a list of die words, from a run in progress (R281). -/
def heldRun : List Nat → Bool → Nat → Nat → Nat
  | [], _, run, most => max run most
  | w :: ws, held, run, most =>
    let held := heldAfter held w
    heldRun ws held (if held then run + 1 else 0) (max run most)

/-- Whether a forever body holds programming without end: held when it begins or in it, and nowhere opened in it (R281). -/
def heldForever (held : Bool) (body : List Nat) : Bool :=
  body.foldl heldAfter held && !body.any (fun w => decide (fld w 76 75 = 2))

/-- 0x1C: a used unit has too few gap steps (R181), or programming is held too long. -/
def chkGap (a : Nat) (s : State) : Check :=
  let pro := hPro a s
  let body := hBody a s
  let die := ((dieStr a s).expand a s).map (fun w => (dieStr a s).word a w s)
  let long := die ++ die.drop pro ++ die.drop pro
  let last := if body = 0 then some pro else none
  firstOf [each (imgLanes a s) (fun (c, j, t) =>
      let r := regionOf c
      match (rgnStrs a s).find? (fun x => x.idx = r) with
      | none => none
      | some rt =>
        let b := (c / 128 % 16 / 4) * 4 + c % 128 % 16 / 4
        let steps := (rt.expand a s).zip (t.expand a s)
        each (usedUnits a j s) (fun u =>
          let l := steps.map (fun (rw, lw) => bit (rt.word a rw s) (32 + b) && decide (uaKind (wordAct a j (t.word a lw s) u s) = 0))
          failIf (match gapSteps pro body l with
            | none => true
            | some g => !gapsOk g last) 0x1C 4 c t.entOff)),
    failIf (2 ^ 20 < heldRun long false 0 0 || (body ≠ 0 && heldForever ((die.take pro).foldl heldAfter false) (die.drop pro))) 0x1C 2 0 0]

/-- 0x1D: a region's current (R313). -/
def chkRegionCur (a : Nat) (s : State) : Check :=
  each (imgRgns a s).zipIdx (fun (r, j) =>
    failIf (rf pgAdm 0x128 15 0 s < imgPower a j 0 s + admSum (fun x => SMap.get 0 x.ipeak r) s) 0x1D 0xC r (8 * j))

/-- The image's declared slew and power, over its regions (R299). -/
def imgSlew (a : Nat) (s : State) : Nat := sumN ((imgRgns a s).zipIdx.map (fun (_, j) => imgPower a j 1 s))
def imgWatts (a : Nat) (s : State) : Nat := sumN ((imgRgns a s).zipIdx.map (fun (_, j) => imgPower a j 2 s))

/-- 0x1E and 0x1F: package power and slew. -/
def chkPower (a : Nat) (s : State) : Check :=
  failIf (34000 < imgWatts a s + admSum (·.power) s + rf pgAdm 0x124 15 0 s) 0x1E 0xC 0 0
def chkSlew (a : Nat) (s : State) : Check := failIf (25000 < imgSlew a s + admSum (·.slew) s) 0x1F 0xC 0 0

/-- The verdict of admission on the image at an address: the first check that fails, in the order of R304. -/
def admitCheck (a : Nat) (s : State) : Check :=
  firstOf [chkSignature a s, chkHeader a s, chkLevel a s, chkGen a s, chkFeature a s, chkReserved a s, chkSection a s,
    chkPitch a s, chkStreamLen a s, chkLoop a s, chkLaneStore a s, chkGate a s, chkUnits a s, chkResident a s, chkJoin a s,
    chkUat a s, chkRed a s, chkFormat a s, chkStove a s, chkRoute a s, chkPantry a s, chkReplay a s, chkStack a s, chkLink a s,
    chkMirror a s, chkRecipe a s, chkGap a s, chkRegionCur a s, chkPower a s, chkSlew a s]

end Sys2Proof.Machine
end

