-- ==== Sys2Proof/Machine/Adm.lean ====
section
/-! DEFINITION. Slot operations (R304–R318): admission and its writes, START, RETIRE, ABORT, RELEASE, the end of a slot,
and the plane pointer (R433–R437). -/

namespace Sys2Proof.Machine

/-- The address that ADMIT reads (R309). -/
def admImg (s : State) : Nat := (rd pgAdm 0x104 s).toNat + 2 ^ 32 * rf pgAdm 0x108 7 0 s

/-- An operation that is not permitted is ignored and recorded (R308). -/
def admIgnored (s : State) : State := recordErr pgAdm errOPIGN s

/-- Report a result of admission (R310, R311). -/
def admReport (code sec index off : Nat) (s : State) : State :=
  wr pgAdm 0x114 (word off) (wr pgAdm 0x110 (word (sec % 2 ^ 16 * 2 ^ 16 + index % 2 ^ 16)) (wf pgAdm 0x10C 23 16 code s))

/-- Whether a slot is CHECKING. -/
def checking (s : State) : Bool := (List.range 16).any (fun n => (slotAt n s).st = .checking)

/-- A write of ADMIT (R304, R307, R308): the checks see fences, residency and other images as they stand now (R305). -/
def admitWrite (s : State) : State :=
  if checking s then admIgnored s
  else match firstBelow 16 (fun n => (slotAt n s).st = .empty) with
  | none => admReport 0x08 0 0 0 s
  | some n =>
    let a := admImg s
    let v := (admitCheck a s).getD ⟨0, 0, 0, 0⟩
    let s := updSlot n (fun x => { x with st := .checking }) (wf pgAdm 0x10C 27 24 n (wb pgAdm 0x10C 31 true s))
    { s with admJob := some { slot := n, addr := a, code := v.code, sec := v.sect, index := v.index, off := v.off } }

/-- ADMIT (R304, R308). -/
def execAdmitImage (q : Requester) (s : State) : Host.Outcome State Fault Refusal := .next (guardWrite q pgAdm 0x100 admitWrite s)

-- What admission writes (R305) ----------------------------------------------------------------------------------------

/-- A table from a list of keys and values. -/
def tableOf {α : Type} [DecidableEq α] (d : α) (l : List (Nat × α)) : SMap α := l.foldl (fun m e => SMap.set d m e.1 e.2) []

/-- The image's recipes, layer by layer (R157). -/
def imgRecipes (a : Nat) (s : State) : SMap Nat := tableOf 0 ((List.range 256).map (fun l => (l, hRcp a l s)))

/-- A cluster of the image as admission leaves it: its tables, its empty Pantry, the first words of its lane stream
(R234), its initial recipes. Its fences and its message numbers stay. -/
def admCluster (a c j : Nat) (t : Stream) (s : State) (cl : Cluster) : Cluster :=
  { Cluster.empty with
    uat := tableOf 0 ((List.range 256).map (fun i => (i, imgUat a j i s))),
    red := tableOf 0 (listed (imgRed a s) c),
    rte := tableOf 0 (listed (imgRte a s) c),
    curves := tableOf 0 ((List.range 512).map (fun i => (i, word (imgFmt a j (104 + 4 * i) s)))),
    recipes := imgRecipes a s,
    store := tableOf 0 ((List.range (min t.n laneSlots)).map (fun w => (w, t.word a w s))),
    loaded := min t.n laneSlots,
    routing := cl.routing, counts := cl.counts, sent := cl.sent, msgNo := cl.msgNo, seen := cl.seen, bank := cl.bank,
    bankNext := cl.bankNext, fenceReq := cl.fenceReq, fenced := cl.fenced, recal := cl.recal, refr := cl.refr, mcast := cl.mcast,
    held := cl.held, umDown := cl.umDown }

/-- Write a cluster's registers at admission: formats, descriptors and curve headers (R113, R140, R146), CLU_PANMAP and
CLU_RING (R227, R230), and its pitch (R365). -/
def admCluRegs (a c j pitch : Nat) (s : State) : State :=
  let p := Page.clu c
  let s := foldRange 16 (fun i s => wr p (0x1C0 + 4 * i) (word (imgFmt a j (4 * i) s)) s) s
  let s := foldRange 8 (fun i s => wr p (0x200 + 4 * i) (word (imgFmt a j (64 + 4 * i) s)) s) s
  let s := foldRange 2 (fun i s => wr p (0x240 + 4 * i) (word (imgFmt a j (96 + 4 * i) s)) s) s
  let s := wr p 0x280 (word (imgPantry a j 1 s % 512 * 2 ^ 16 + imgPantry a j 0 s % 512)) s
  let s := wr p 0x284 (word (hWindow a s % 64)) s
  wr p 0x318 (word (16 + pitch % 16)) s

/-- The lowest pitch index that no slot holds (R350). -/
def freePitch (s : State) : Nat := (firstBelow 16 (fun p => !rb pgPch (0x100 + 4 * p) 31 s)).getD 0

/-- Planes that an image declares. -/
def declared (a p : Nat) (s : State) : Bool := bit (hPlanes a s) p

/-- The plane pointer at admission (R433). -/
def firstPtr (a : Nat) (s : State) : Nat :=
  match firstBelow 2 (fun p => declared a p s && nonZero (hModel a p s)) with
  | some p => p
  | none => (firstBelow 2 (fun p => declared a p s)).getD 0

/-- Whether some used unit action names TAG and the image is not joined (R433). -/
def imgTagged (a : Nat) (s : State) : Bool :=
  !bit (hPlanes a s) 2 && (imgLanes a s).any (fun (_, j, t) =>
    (usedActs a j t s).any (fun e => decide (uaKind e.2 = 1 ∧ uaPlane e.2 = 0)))

/-- Planes that some used unit action names outright: bit p for plane p. -/
def imgNames (a : Nat) (s : State) : Nat :=
  let named (p : Nat) : Bool := (imgLanes a s).any (fun (_, j, t) =>
    (usedActs a j t s).any (fun e => decide (uaKind e.2 = 1 ∧ uaPlane e.2 = p + 1)))
  b2n (named 0) + 2 * b2n (named 1)

/-- Features granted (R301). -/
def imgFeats (a : Nat) (s : State) : Nat := Nat.lor (hReq a s) (hOpt a s) % 256

/-- The slot of an admitted image (R295–R299, R466). -/
def admSlot (a pitch : Nat) (s : State) : Slot :=
  let ports := (imgPorts a s).getD []
  { Slot.vacant with
    st := .ready, img := a, pitch := pitch, slack := hSlack a s, window := hWindow a s, early := hEgress a s == 1,
    planes := hPlanes a s, layers := hLayers a s, feat := imgFeats a s, pro := hPro a s, body := hBody a s,
    px0 := hX a s, py0 := hY a s, pw := hW a s, ph := hH a s, bslots := hSlots a s, mirBw := hMirror a s,
    model0 := hModel a 0 s, model1 := hModel a 1 s, wide := hWide a s, power := imgWatts a s, slew := imgSlew a s,
    digest := sha3 (memRead a (hLen a s - sigLen) s),
    place := tableOf 0 ((imgIdx a s).map (fun (c, j) => (c, imgPlace a j s))),
    names := imgNames a s, tagAct := imgTagged a s,
    lanes := tableOf (0, 0) (((imgIdx a s).zip (laneStrs a s)).map (fun ((c, _), t) => (c, (a + t.off, t.n)))),
    rgns := tableOf (0, 0) ((rgnStrs a s).map (fun t => (t.idx, (a + t.off, t.n)))),
    dieWords := (a + (dieStream a s).1, (dieStream a s).2),
    stoves := (imgStoves a s).map (·.1),
    extents := imgExtents a s,
    scheds := tableOf [] (ports.map (fun r => (r.port, memRead (a + r.off) (16 * r.nent) s))),
    rates := tableOf 0 (ports.map (fun r => (r.port, r.rate))),
    ptr := firstPtr a s,
    ipeak := tableOf 0 ((imgRgns a s).zipIdx.map (fun (r, j) => (r, imgPower a j 0 s))) }

/-- Load a claimed Stove's SRAM from byte 0 (R296); what it held is overwritten and no line stays poisoned. -/
def admStove (a r off : Nat) (s : State) : State :=
  let sram := (memRead (a + off) sramSize s).zipIdx.foldl (fun m (b, i) => SMap.set 0 m i b) (rgnAt r s).sram
  updRgn r (fun x => { x with sram := sram, poison := [], tags := [] }) s

/-- Set or clear LOCAL and PITCH of the system pitch table entry that an image's LINK section names (R492). -/
def markLocal (spid : Nat) (pitch : Option Nat) (s : State) : State :=
  match spaOf spid s with
  | none => s
  | some i =>
    match pitch with
    | some p => wf pgTop (0x140 + 8 * i) 12 8 (16 + p % 16) s
    | none => wf pgTop (0x140 + 8 * i) 12 8 0 s

/-- No unit of an image's clusters has read since its load (R215). The blocks that wait in its filling half stay (log 103). -/
def freshReads (cs : List Nat) (s : State) : State :=
  (s.units.filter (fun e => cs.contains (e.1 / 128))).foldl (fun s e =>
    updUnit (e.1 / 128) (e.1 % 128) (fun x => { x with hasRead := false }) s) s

/-- Everything an admitted image writes before its slot becomes READY (R305). -/
def admitImage (n a : Nat) (s : State) : State :=
  let pitch := freePitch s
  let x := admSlot a pitch s
  let s1 := (imgLanes a s).foldl (fun z (c, j, t) => admCluRegs a c j pitch (setClu c (admCluster a c j t s (cluAt c z)) z)) s
  let s1 := (slotRegions x).foldl (fun z r => updRgn r (fun g => { g with
    seqs := SMap.set SeqPos.start g.seqs n SeqPos.start, seqHist := SMap.set [] g.seqHist n [],
    samples := SMap.set 0 g.samples n 0 }) z) s1
  let s1 := freshReads (imgClus a s) ((imgStoves a s).foldl (fun z (r, o) => admStove a r o z) s1)
  let s1 := foldRange 16 (fun i z => wr pgAdm (0x400 + 4 * i) (word (ib a (0x080 + 4 * i) 4 s)) z) s1
  let s1 := wr pgPch (0x100 + 4 * pitch) (word (2 ^ 31 + x.ph / 4 % 64 * 2 ^ 16 + x.pw / 4 % 64 * 2 ^ 10 + x.py0 / 4 % 32 * 2 ^ 5 + x.px0 / 4 % 32)) s1
  let s1 := if hasLink a s then markLocal (linkByte a 0 s) (some pitch) s1 else s1
  let s1 := wr pgAdm (0x200 + 4 * n) (word (b2n x.tagAct * 2 ^ 8 + x.ptr)) s1
  let s1 := wb pgAdm (0x140 + 4 * n) 28 false s1
  extendMeas 4 x.digest (mirrorSlotItem n (setSlot n x { s1 with rcpOwner := some n }))

/-- ADMISSION_COMPLETE (R304–R307): the checks end. A refused image leaves its slot EMPTY and writes nothing else. -/
def execAdmissionComplete (s : State) : Host.Outcome State Fault Refusal :=
  match s.admJob with
  | none => .next s
  | some j =>
    let s := wb pgAdm 0x10C 31 false { s with admJob := none }
    if j.code ≠ 0 then .next (admReport j.code j.sec j.index j.off (setSlot j.slot Slot.vacant s))
    else .next (admReport 0 0 0 0 (admitImage j.slot j.addr s))

-- START to RELEASE (R307, R318) --------------------------------------------------------------------------------------------

/-- Whether the image of a slot has an ENTRY or an EXIT word (R578). -/
def hasEntryExit (x : Slot) (s : State) : Bool :=
  (List.range x.dieWords.2).any (fun w => let v := dieWord x w s; bit v 64 || bit v 65)

/-- Whether an area of two halves lies within the image's extents (R578). -/
def areaOk (x : Slot) (base stride : Nat) : Bool :=
  let n := 2 * x.bslots * stride
  x.extents.any (fun e => decide (e.1 ≤ base ∧ base + n ≤ e.1 + e.2))

/-- Whether START finds the input and output areas in order (R578). -/
def areasOk (n : Nat) (s : State) : Bool :=
  let x := slotAt n s
  !hasEntryExit x s || ((List.range 2).all (fun o => let (b, k) := ioArea n o s; areaOk x b k))

/-- A cluster at START: token counters and gate queue clear, floor 0, step 0 next (R318). -/
def Cluster.started (cl : Cluster) : Cluster := { cl with tokens := [], gates := [], floor := 0 }

/-- Failures of the clusters' earlier images are not classified by the steps of a new one (R508). -/
def forgetFails (cs : List Nat) (s : State) : State :=
  { s with failRecs := s.failRecs.filter (fun f => !cs.contains (f.unit / 128)), netWait := s.netWait.filter (fun e => !cs.contains e.1) }

/-- A write of START (R307, R318, R578). -/
def startWrite (n : Nat) (s : State) : State :=
  let x := slotAt n s
  if x.st ≠ .ready then admIgnored s
  else if !areasOk n s then recordErr pgStrm errOPIGN (admIgnored s)
  else
    let s := (slotClusters x).foldl (fun s c => updClu c Cluster.started s) s
    let s := forgetFails (slotClusters x) s
    let s := (slotRegions x).foldl (fun s r => updRgn r (fun g => { g with samples := SMap.set 0 g.samples n 0 }) s) s
    mirrorSlotItem n (setSlot n { x with st := .running, floor := 0, pubTime := now s, stalled := false } s)

/-- START (R307, R318). -/
def execStart (q : Requester) (slot : Nat) (s : State) : Host.Outcome State Fault Refusal :=
  .next (guardWrite q pgAdm 0x100 (startWrite slot) s)

/-- A write of RETIRE (R307). -/
def retireWrite (n : Nat) (s : State) : State :=
  let x := slotAt n s
  if x.st = .running then mirrorSlotItem n (setSlot n { x with st := .draining } s) else admIgnored s

/-- RETIRE (R307). -/
def execRetire (q : Requester) (slot : Nat) (s : State) : Host.Outcome State Fault Refusal :=
  .next (guardWrite q pgAdm 0x100 (retireWrite slot) s)

/-- A slot begins to abort (R307): its clusters stop at their next step boundaries, and their reduction entries are disarmed, so that no step waits
for a contribution of a cluster that has stopped. -/
def abortSlot (n : Nat) (s : State) : State :=
  let s := (slotClusters (slotAt n s)).foldl (fun s c => updClu c (fun cl => { cl with armed := [], waitArm := [] }) s) s
  mirrorSlotItem n (updSlot n (fun x => { x with st := .aborting, gates := [], links := [] }) s)

/-- A write of ABORT (R304, R307). -/
def abortWrite (n : Nat) (s : State) : State :=
  match (slotAt n s).st with
  | .checking =>
    admReport 0x20 0 0 0 (wb pgAdm 0x10C 31 false (setSlot n Slot.vacant { s with admJob := none }))
  | .ready => endSlot n stABORTED 1 s
  | .running | .draining => abortSlot n s
  | _ => admIgnored s

/-- ABORT (R307). -/
def execAbort (q : Requester) (slot : Nat) (s : State) : Host.Outcome State Fault Refusal :=
  .next (guardWrite q pgAdm 0x100 (abortWrite slot) s)

/-- A write of RELEASE: the pitch, extents, Stove claims and sums go (R318, R350, R492). -/
def releaseWrite (n : Nat) (s : State) : State :=
  let x := slotAt n s
  if x.st ≠ .ended then admIgnored s
  else
    let s := (slotClusters x).foldl (fun s c => wr (.clu c) 0x318 0 s) s
    let s := wr pgPch (0x100 + 4 * x.pitch) 0 s
    let s := foldRange 16 (fun i s =>
      if rf pgTop (0x140 + 8 * i) 12 8 s = 16 + x.pitch then wf pgTop (0x140 + 8 * i) 12 8 0 s else s) s
    let s := if s.rcpOwner = some n then { s with rcpOwner := none } else s
    setSlot n Slot.vacant (wb pgAdm (0x140 + 4 * n) 28 false s)

/-- RELEASE (R307, R318). -/
def execRelease (q : Requester) (slot : Nat) (s : State) : Host.Outcome State Fault Refusal :=
  .next (guardWrite q pgAdm 0x100 (releaseWrite slot) s)

/-- SLOT_STOPPED (R307): the last cluster of an ABORTING slot, or of a DRAINING slot with no token in a batch, has
stopped. -/
def execSlotStopped (slot : Nat) (s : State) : Host.Outcome State Fault Refusal :=
  let x := slotAt slot s
  if !x.stopping || !allStopped x s then .next s
  else if x.st = .aborting then .next (endSlot slot stABORTED 1 s)
  else .next (endSlot slot stENDED 2 s)

-- The plane pointer (R433–R437) ---------------------------------------------------------------------------------------------

/-- Clusters and logical units that a slot's image uses. -/
def slotUnits (x : Slot) : List (Nat × Nat) :=
  x.place.flatMap (fun (c, m) => ((List.range 64).filter (bit m)).map (fun u => (c, u)))

/-- Whether a plane is RESIDENT on every used unit of a slot. -/
def planeReady (x : Slot) (p : Nat) (s : State) : Bool :=
  (slotUnits x).all (fun (c, u) => match physOf c u s with
    | none => false
    | some k => decide (((unitAt c k s).plane p).st = .resident) && !claimed (upKey c u p) s)

/-- Whether a plane of every used unit lies under one record that is not LOADING (R436). -/
def planeOneRec (x : Slot) (p : Nat) (s : State) : Bool :=
  match (slotUnits x).map (fun (c, u) => recOf (upKey c u p) s) with
  | [] => true
  | r :: rs => rs.all (· == r) && (match r with
    | none => false
    | some n => decide ((SMap.get ResRec.free s.resrecs n).st ≠ 3))

/-- Why a pointer write is refused, by R437's codes; 0 where it is not (R436). -/
def ptrRefusal (x : Slot) (p : Nat) (s : State) : Nat :=
  if !(x.st = .ready ∨ x.st = .running ∨ x.st = .draining) then 1
  else if !x.tagAct then 2
  else if !bit x.planes p then 3
  else if !planeReady x p s then 4
  else if !planeOneRec x p s then 5
  else 0

/-- A write of ADM_PLANEn.PTR (R436). A write equal to PTR is accepted and changes nothing. -/
def ptrWrite (n p : Nat) (s : State) : State :=
  let x := slotAt n s
  if p = x.ptr then s
  else match ptrRefusal x p s with
  | 0 => mirrorSlotItem n (wf pgAdm (0x200 + 4 * n) 0 0 p (setSlot n { x with ptr := p } s))
  | k => wf pgAdm (0x200 + 4 * n) 31 28 k s

/-- PLANE_POINTER_WRITE (R436). -/
def execPlanePointerWrite (q : Requester) (slot ptr : Nat) (s : State) : Host.Outcome State Fault Refusal :=
  .next (guardWrite q pgAdm (0x200 + 4 * slot) (ptrWrite slot (ptr % 2)) s)

/-- Whether plane p of a slot's units is released by this slot (R437). -/
def planeReleased (x : Slot) (p : Nat) : Bool :=
  decide (x.ptr ≠ p ∧ (if p = 0 then x.drain0 else x.drain1) = 0) && !bit x.names p && !bit x.planes 2 &&
    (match (if p = 0 then x.last0 else x.last1) with
     | none => true
     | some l => decide (l + x.window ≤ x.floor))

end Sys2Proof.Machine
end

