-- ==== Sys2Proof/Machine/Mesh.lean ====
section
/-! DEFINITION. The Portage mesh (R319–R349, R767): routing, delivery, refusals, acknowledgements, multicast, links that
fail, and cluster fences. -/

namespace Sys2Proof.Machine

/-- Send a REFUSE from a cluster for one target of a message (R336, R767). -/
def refuse (c : Nat) (m : PMsg) (target status : Nat) (s : State) : State := refuseTo c m.tag m.id target status m.blks.length s

/-- Send an ACK for an accepted message (R336). -/
def ack (c : Nat) (m : PMsg) (s : State) : State := ackTo c m.tag m.id m.blks.length s

-- Links and routes (R322, R331, R332) ---------------------------------------------------------------------------

/-- The neighbour of a cluster across a port: 0 north, 1 east, 2 south, 3 west; none at the die edge. -/
def neighbour (c port : Nat) : Option Nat :=
  let x := c % 128
  let y := c / 128
  match port with
  | 0 => if y = 0 then none else some (c - 128)
  | 1 => if x = 127 then none else some (c + 1)
  | 2 => if y = 127 then none else some (c + 128)
  | _ => if x = 0 then none else some (c - 1)

/-- Whether a stack controller or a Ralpor or Ethernet port joins an outer port of a cluster (R322). -/
def attached (c : Nat) : Bool :=
  (List.range 20).any (fun n => stkCluster n == c) || (List.range 13).any (fun p => portCluster p == c)

/-- Whether a beat cannot leave a cluster by a port: the link is down, leads into a fenced cluster, or is tied off
(R332, R345). -/
def linkBad (c port : Nat) (s : State) : Bool :=
  rb (.clu c) 0x320 port s || (match neighbour c port with
    | none => !attached c
    | some d => (cluAt d s).fenced)

/-- The routing entry that a cluster's router uses for a destination in a bank (R331). -/
def routeEnt (c bank dcl : Nat) (s : State) : Nat :=
  let m := (cluAt c s).routing
  if regionOf dcl = regionOf c then SMap.get 0 m (routeKey bank 1 (localOf dcl))
  else SMap.get 0 m (routeKey bank 0 (regionOf dcl))

/-- Whether a held message is this one. -/
def sameMsg (m x : PMsg) : Bool :=
  decide (x.tag.scl = m.tag.scl ∧ x.id = m.id ∧ x.tag.kind = m.tag.kind ∧ x.tag.dcl = m.tag.dcl)

/-- A router sends a message on across a port, its beats as their producer made them (R327, R331). -/
def passOn (c port : Nat) (m : PMsg) (more : List Nat) (s : State) : State :=
  emit { kind := .portage, blks := m.blks, bytes := wire 64 m.tag m.blks,
         args := [c, port, m.tag.scl, m.id, m.step, m.tag.kind, m.tag.sub, m.tag.vc, m.tag.pitch, m.tag.bank] ++ more ++ m.bad } s

/-- BEAT_FORWARD (R331, R332, R344): a router sends a message on by its bank's table, or refuses it: NOROUTE where the entry names no port or a bad
link, LINKDOWN where the message waited for that link. While the link has no `room` for it, it waits. A message at its own cluster is delivered by
DATA_MESSAGE_ACCEPT; a multicast follows R341, but for a reserved KIND, which is forwarded by DCL whatever its VC. -/
def execBeatForward (c : Nat) (m : PMsg) (room : Bool) (s : State) : Host.Outcome State Fault Refusal :=
  if m.tag.dcl = c ∨ (m.tag.vc = 1 ∧ m.tag.kind ≤ 0xA) then .next s
  else
    let e := routeEnt c m.tag.bank m.tag.dcl s
    let waited := (cluAt c s).held.any (fun h => sameMsg m h.2)
    let rest := (cluAt c s).held.filter (fun h => !sameMsg m h.2)
    let keep (l : List (Nat × PMsg)) : State := if l = (cluAt c s).held then s else updClu c (fun cl => { cl with held := l }) s
    if !bit e 7 then .next (refuse c m m.tag.dcl rsNOROUTE (keep rest))
    else if linkBad c (e % 4) s then .next (refuse c m m.tag.dcl (if waited then rsLINKDOWN else rsNOROUTE) (keep rest))
    else if room then .next (passOn c (e % 4) m [m.tag.dcl] (keep rest))
    else .next (keep (rest ++ [(e % 4, m)]))

-- Delivery (R327–R337, R351) -----------------------------------------------------------------------------------------

/-- A message's source as a number (R325). -/
def msgSrc (m : PMsg) : Nat := m.tag.scl * 64 + m.tag.src

/-- Cluster-mesh beats of a message. -/
def msgBeats (m : PMsg) : Nat := max 1 (sumN (m.blks.map beatsOf))

/-- Region whose Stove a cluster attaches (R257). -/
def stoveAt (c : Nat) : Option Nat := let r := regionOf c; if stoveCluster r = c then some r else none

/-- Whether a message is foreign where it arrives: to the cluster's pitch, or to the pitch that claims the Stove (R351). A
port takes the messages of every pitch. -/
def msgForeign (c : Nat) (m : PMsg) (s : State) : Bool :=
  match m.tag.kind with
  | 3 => match stoveAt c with
    | none => foreign c m.tag.pitch s
    | some r => match slotOfPitch m.tag.pitch s with
      | none => true
      | some n => !(slotAt n s).stoves.contains r
  | 4 => false
  | _ => foreign c m.tag.pitch s

/-- Lines that a message's blocks occupy (R226). -/
def msgLines (m : PMsg) : Nat := runLines m.blks

/-- Port codes that a DATA-PORT message may name at a cluster. -/
def portHere (c sub : Nat) : Bool := decide (sub < 13) && portCluster sub == c

/-- Whether a cluster cannot hold a message at the place it names (R336). -/
def badSub (c : Nat) (m : PMsg) : Bool :=
  match m.tag.kind with
  | 0 => decide (512 < m.tag.sub + msgLines m)
  | 1 => decide (31 < m.tag.sub)
  | 2 => decide (63 < m.tag.sub)
  | 3 => (stoveAt c).isNone || decide (65536 < m.tag.sub + msgLines m)
  | _ => !portHere c m.tag.sub

/-- Whether the destination is fenced: the cluster, or the slot with no spare in its place (R336, R339, R353). A logical unit beyond 63 is
no destination that a fence covers: BADSUB. -/
def dstFenced (c : Nat) (m : PMsg) (s : State) : Bool :=
  cluFenced c s || (decide (m.tag.kind = 2 ∧ m.tag.sub ≤ 63) && (match physOf c m.tag.sub s with
    | none => true
    | some k => (unitAt c k s).fenced))

/-- Whether a message for a unit would cross a link of the unit mesh that is down (R334, R344). -/
def unitCut (c : Nat) (m : PMsg) (s : State) : Bool :=
  decide (m.tag.kind = 2) && (match physOf c m.tag.sub s with
    | none => false
    | some k => pathDown c (unitPath nodeCluster k) s)

/-- Pantry lines that the step in progress consumes (R337). -/
def busyLines (cl : Cluster) : List Nat :=
  if !cl.busy then []
  else
    let acts := (laneActs cl cl.word).map (fun u => SMap.get 0 cl.uat (fld cl.word (8 * u + 7) (8 * u)))
    (acts.filter (fun e => uaInsrc e = 0)).flatMap (fun e => (List.range 4).map (· + uaInline e)) ++
      ((laneArms cl.word).map (fun e => SMap.get 0 cl.red e)).flatMap (fun e =>
        if rdRin e then (List.range 8).map (· + rdRline e) else [])

/-- Room at a port: 8,192 blocks, 1,024 from any one source cluster (R468). -/
def portRoom (p : Nat) (m : PMsg) (s : State) : Bool :=
  let l := (portAt p s).blocks
  decide (l.length + m.blks.length ≤ 8192 ∧ (l.filter (fun e => e.scl = m.tag.scl)).length + m.blks.length ≤ 1024)

/-- Whether a message waits for its target to be free (R214, R337, R468). -/
def msgWaits (c : Nat) (m : PMsg) (s : State) : Bool :=
  match m.tag.kind with
  | 0 => (busyLines (cluAt c s)).any (fun l => decide (m.tag.sub ≤ l ∧ l < m.tag.sub + msgLines m))
  | 2 => match physOf c m.tag.sub s with
    | none => false
    | some k => decide (4 < (unitAt c k s).filling.length + m.blks.length)
  | 4 => !portRoom m.tag.sub m s
  | _ => false

/-- The record that a message sent again replaces: one of its sender and place with a failed cause (R504). -/
def replaced (c step kind sub src : Nat) (s : State) : Option RingRec :=
  match (cluAt c s).ring.find? (fun e => e.step = step) with
  | none => none
  | some e => e.recs.find? (fun r => r.kind = kind ∧ r.sub = sub ∧ r.src = src ∧ r.blks.any (fun b => causeFails b.cause))

/-- Replace blocks in a filling half by those sent again, one for one. -/
def swapBlks : List Blk → List Blk → List Blk → List Blk
  | o :: os, n :: ns, l =>
    swapBlks os ns (match l.findIdx? (· == o) with
      | some i => setNth l i n
      | none => l)
  | _, _, l => l

/-- Write a block sent again over the first, where that still stands (R504). -/
def placeOver (c kind sub src : Nat) (old new : List Blk) (s : State) : State :=
  match kind with
  | 0 => setLines c sub new s
  | 1 => updClu c (fun cl => { cl with armed := cl.armed.map (fun a =>
      if a.entry = sub ∧ a.srcs.contains src then a.over src new else a) }) s
  | _ => match physOf c sub s with
    | none => s
    | some k => updUnit c k (fun x => { x with filling := swapBlks old new x.filling }) s

/-- Bytes of a block as 64 B lines of Stove SRAM, with room for a run's format (R226, R337). -/
def lineBytes (b : Blk) (lines : Nat) : List Byte := slice (blkBytes b) 0 (64 * lines)

/-- Write blocks into Stove SRAM from a line up, `n` lines to a place of the run; the lines of a block that failed its parity are poisoned with code
1, which the next write clears (R337, R762). A zero block writes the first line of its place (R226). The lines keep what travels with their block
(R35, R253). -/
def stoveLines (r n : Nat) : Nat → List (Blk × Bool) → State → State
  | _, [], s => s
  | l, (b, ok) :: bs, s =>
    let k := if twoLines b then 2 else 1
    let s := sramLines r l (lineBytes b k) (if ok then [] else List.range k) 1 s
    let tag : LineTag := { cause := b.cause, pt := b.pt, sid := b.sid, bslot := b.bslot }
    stoveLines r n (l + n) bs (updRgn r (fun x => { x with tags := foldRange k (fun i m => SMap.set none m (l + i) (some tag)) x.tags }) s)

/-- Queue blocks at a port; one sent again goes over the first of its sender and step that failed (R337, R468, R504). -/
def portTake (p : Nat) (m : PMsg) (bs : List Blk) (s : State) : State :=
  let fresh (b : Blk) : Egr := { scl := m.tag.scl, src := m.tag.src, step := m.step, pitch := m.tag.pitch, blk := b, due := false }
  let mine (e : Egr) : Bool := decide (e.scl = m.tag.scl ∧ e.src = m.tag.src ∧ e.step = m.step ∧ e.pitch = m.tag.pitch) && e.due
  let rec lay : List Egr → List Blk → List Egr × List Blk
    | [], l => ([], l)
    | e :: es, [] => (e :: es, [])
    | e :: es, b :: l =>
      if mine e then let (es', l') := lay es l; ({ e with blk := b, due := false } :: es', l')
      else let (es', l') := lay es (b :: l); (e :: es', l')
  let acts (as_ : List LinkAct) (l : List Blk) : List LinkAct × List Blk :=
    as_.foldl (fun a x => let (es, l) := lay x.blks a.2; (a.1 ++ [{ x with blks := es }], l)) ([], l)
  updPort p (fun x =>
    let (kept, l) := acts x.kept bs
    let (held, l) := acts x.held l
    let (blocks, l) := lay x.blocks l
    { x with kept := kept, held := held, blocks := blocks ++ l.map fresh }) s

/-- Deliver the blocks of an accepted message, each with whether it passed parity (R229, R334, R337, R504). -/
def msgDeliver (c : Nat) (m : PMsg) (bs : List Blk) (ok : List Bool) (s : State) : State :=
  match m.tag.kind with
  | 3 => match stoveAt c with
    | none => s
    | some r => stoveLines r (linesOf (zeroBlk (runFmt bs) false 0 0 0 0)) m.tag.sub (bs.zip ok) s
  | 4 => portTake m.tag.sub m bs s
  | kind =>
    let inside := match slotOfClu c s with
      | none => false
      | some n => (slotClusters (slotAt n s)).contains m.tag.scl && decide (m.tag.src ≠ srcNone ∨ ¬ attached m.tag.scl)
    let alien := !inside || ok.any (!·)
    let s := if kind = 2 then (match physOf c m.tag.sub s with
      | none => s
      | some k => crossUnits c nodeCluster k m.tag bs s) else s
    let s := match replaced c m.step kind m.tag.sub (msgSrc m) s with
      | some r => placeOver c kind m.tag.sub (msgSrc m) r.blks bs s
      | none => place c kind m.tag.sub (msgSrc m) alien bs s
    ringKeep c m.step kind m.tag.sub (msgSrc m) alien bs s

/-- Blocks of a message as delivered: one whose beats failed parity takes a failed cause (R328). -/
def msgBlks : List (Blk × Bool) → State → List Blk × State
  | [], s => ([], s)
  | (b, true) :: l, s => let (bs, s) := msgBlks l s; (b :: bs, s)
  | (b, false) :: l, s =>
    let (w, s) := freeCause s
    let (bs, s) := msgBlks l s
    ({ b with cause := w } :: bs, s)

/-- Whether a message comes from a port's ingress (R471), and whether a cluster attaches an ETH port (R442). -/
def fromPort (m : PMsg) : Bool := decide (m.tag.src = 0x3F) && (List.range 13).any (fun p => portCluster p == m.tag.scl)
def ethCluster (c : Nat) : Bool := (List.range 8).any (fun e => portCluster (5 + e) == c)

/-- The routers from a cluster to another under a bank, both ends included (R524). `fuel` bounds the hops. -/
def routePath : Nat → Nat → Nat → Nat → State → List Nat
  | 0, _, dst, _, _ => [dst]
  | fuel + 1, c, dst, bank, s =>
    if c = dst then [dst]
    else match neighbour c (routeEnt c bank dst s % 4) with
      | none => [c, dst]
      | some d => if bit (routeEnt c bank dst s) 7 then c :: routePath fuel d dst bank s else [c, dst]

/-- A failed beat of a message: its route from its source cluster is kept for the judgement of routers (R524). -/
def noteRoute (c : Nat) (m : PMsg) (s : State) : State :=
  { s with netPath := SMap.set [] s.netPath c (routePath 16384 m.tag.scl c m.tag.bank s) }

/-- The beats of each block of a message, by number, in order (R324). -/
def blkBeats : List Blk → Nat → List (List Nat)
  | [], _ => []
  | b :: bs, n => ((List.range (beatsOf b)).map (n + ·)) :: blkBeats bs (n + beatsOf b)

/-- Whether each block of a message has only beats that pass parity. -/
def blksOk (m : PMsg) : List Bool := (blkBeats m.blks 0).map (fun l => l.all (fun i => !m.bad.contains i))

/-- Beats of a message that fail parity. -/
def badBeats (m : PMsg) : Nat := ((List.range (msgBeats m)).filter m.bad.contains).length

/-- The page of the consumer that a message is for: the Stove's, a port's, or the cluster's (R328, R762). -/
def consumerPage (c : Nat) (m : PMsg) : Page :=
  match m.tag.kind with
  | 3 => pgStv (regionOf c)
  | 4 => if m.tag.sub < 5 then pgRlp m.tag.sub else pgEth (m.tag.sub - 5)
  | _ => .clu c

/-- A message that is accepted (R328, R337): each beat that fails parity is a parity event of its consumer, and so is a block with a reserved cause
(R79). Its failed block is reported as origin NET, but for a Stove's, whose poisoned lines fail the operation that reads them (R762); a failed block
from another device is reported as REMOTE, and one that a non-finite input failed as ILLEGAL (R480, R500, R510). -/
def msgAccept (c : Nat) (m : PMsg) (s : State) : State :=
  let p := consumerPage c m
  let ok := blksOk m
  let stove := decide (m.tag.kind = 3)
  let (bs, s) := if stove then (m.blks, s) else msgBlks (m.blks.zip ok) s
  let s := reservedCauses p c m.blks (foldRange (badBeats m) (fun _ s => parityEventAt p c s) s)
  let s := if m.tag.kind = 1 then s else noteHdr p bs s
  let s := if badBeats m ≠ 0 then (if stove then s else report c m.step orgNet 0 0x7F (noteRoute c m s))
    else match bs.find? (fun b => causeFails b.cause) with
      | some b => if fromPort m then report c m.step (if ethCluster m.tag.scl && decide (b.cause = causeIllegal) then orgIllegal else orgRemote) b.cause 0x7F s else s
      | none => s
  ack c m (countRgn (regionOf c) 0x41 (msgBeats m) (msgDeliver c m bs ok s))

/-- The message of those blocks alone that have a beat failing parity: what is left of a misdelivered one, at the place of the first of them (R328,
R330). -/
def failedPart (m : PMsg) : Option PMsg :=
  let l := (m.blks.zip (blksOk m))
  let bs := (l.filter (fun e => !e.2)).map (·.1)
  let skip := runLines ((l.takeWhile (fun e => e.2)).map (·.1))
  if bs.isEmpty then none
  else some { m with blks := bs, bad := List.range (sumN (bs.map beatsOf)),
                     tag := { m.tag with sub := if m.tag.kind = 0 ∨ m.tag.kind = 3 then m.tag.sub + skip else m.tag.sub } }

/-- A message whose DCL is not the cluster, or with a reserved KIND or VC (R330, R332): every beat that passes parity is discarded and counted, and a
DATA message counts as a failure of origin NET. -/
def misdelivered (c : Nat) (m : PMsg) (s : State) : State :=
  let s := foldRange (msgBeats m - badBeats m) (fun _ s => parityEvent c s) s
  if m.tag.kind ≤ 4 ∧ badBeats m < msgBeats m then report c m.step orgNet 0 0x7F (noteRoute c m s) else s

/-- A DATA message at its cluster: dropped as foreign, refused, kept waiting, or accepted (R336, R337, R351). -/
def takeData (c : Nat) (m : PMsg) (s : State) : State :=
  if msgForeign c m s then dropForeign c (msgBeats m) s
  else if dstFenced c m s then refuse c m c rsFENCEDDST s
  else if badSub c m then refuse c m c rsBADSUB s
  else if unitCut c m s then refuse c m c rsLINKDOWN s
  else if msgWaits c m s then s
  else msgAccept c m s

/-- DATA_MESSAGE_ACCEPT (R328–R337, R351): a DATA message at a cluster's router. Of a misdelivered one, or one of a reserved kind or
VC, the beats that pass parity are discarded and counted, and the blocks of the others accepted as failed (R328, R330, R332). `m.step`
is the step that consumes the message, for a port the step that made it. -/
def execDataMessageAccept (c : Nat) (m : PMsg) (s : State) : Host.Outcome State Fault Refusal :=
  if m.tag.dcl ≠ c ∨ 0xA < m.tag.kind ∨ m.tag.vc = 3 then
    let s := misdelivered c m s
    match (if 4 < m.tag.kind then none else failedPart m) with
    | none => .next s
    | some x => .next (takeData c x s)
  else if 4 < m.tag.kind then .next s
  else .next (takeData c m s)

-- Answers at the source (R338, R343) ------------------------------------------------------------------------------------

/-- A target of a message has answered (R338, R343). -/
def resolve (c id target : Nat) (s : State) : State :=
  match (cluAt c s).sent.find? (fun m => m.id = id) with
  | none => s
  | some m =>
    let m' := { m with targets := m.targets.filter (· ≠ target) }
    let sent (l : List Sent) : List Sent :=
      if m'.targets.isEmpty then l.filter (fun x => x.id ≠ id) else l.map (fun x => if x.id = id then m' else x)
    tokenIfResolved c m.step (updClu c (fun cl => { cl with sent := sent cl.sent }) s)

/-- ACK_ARRIVAL (R329, R338). -/
def execAckArrival (c : Nat) (b : CBeat) (s : State) : Host.Outcome State Fault Refusal :=
  .next (takeControl c b (resolve c b.id b.target) s)

/-- A REFUSE at its source (R336, R338): counted by its status; a reserved status counts as a parity event too and as
NOROUTE. -/
def refused (c : Nat) (b : CBeat) (s : State) : State :=
  let s := countRgn (regionOf c) 0x42 1 s
  let s := if b.tag.fmt = rsFENCEDDST then bump (.clu c) 0x31C 23 16 1 s else bump (.clu c) 0x31C 15 8 1 s
  let s := if rsBADSUB < b.tag.fmt then bump (.clu c) 0x31C 31 24 1 s else s
  resolve c b.id b.target (fire 71 s)

/-- REFUSE_ARRIVAL (R329, R338). -/
def execRefuseArrival (c : Nat) (b : CBeat) (s : State) : Host.Outcome State Fault Refusal := .next (takeControl c b (refused c b) s)

/-- The delivery bitmap of a multicast: a bit for each target that has answered (R343). -/
def mcBitmap (all left : List Nat) : Nat :=
  sumN ((all.zipIdx.filter (fun (t, _) => !left.contains t)).map (fun (_, i) => 2 ^ i))

/-- Latch a stall record (R343, R368). -/
def latchStall (c : Nat) (m : Sent) (all : List Nat) (s : State) : State :=
  let p := Page.clu c
  if rb p 0x324 31 s then s
  else
    let s := wr p 0x324 (word (2 ^ 31 + all.length % 512 * 2 ^ 8 + m.entry % 256)) s
    let s := wr p 0x32C (word (m.step / 2 ^ 32 % 2 ^ 16)) (wr p 0x328 (word m.step) s)
    foldRange 8 (fun i s => wr p (0x340 + 4 * i) (word (mcBitmap all m.targets / 2 ^ (32 * i))) s) s

/-- MULTICAST_STALL (R343): MCSTALL µs without every bit set raise NET_MCSTALL once for the message. -/
def execMulticastStall (c id : Nat) (s : State) : Host.Outcome State Fault Refusal :=
  let cl := cluAt c s
  match cl.sent.find? (fun m => m.id = id) with
  | none => .next s
  | some m =>
    let e := SMap.get 0 cl.rte m.entry
    if fld e 1 0 ≠ 2 ∨ m.late ∨ now s < m.since + usec * rf (.clu c) 0x314 7 0 s then .next s
    else
      let sent := cl.sent.map (fun x => if x.id = id then { x with late := true } else x)
      .next (fire 72 (latchStall c m (routeTargets e) (setClu c { cl with sent := sent } s)))

-- Multicast in the routers (R341, R342, R767) -------------------------------------------------------------------------------

/-- The rectangle of a route entry: west and east columns, north and south rows. -/
def mcRect (e : Nat) : Nat × Nat × Nat × Nat :=
  (fld e 22 16, fld e 22 16 + fld e 36 30, fld e 29 23, fld e 29 23 + fld e 43 37)

/-- Branches that a multicast from source src takes at router c: 0 north to 3 west, 4 the cluster itself (R341). -/
def mcBranches (c src e : Nat) : List Nat :=
  let (x, y) := (c % 128, c / 128)
  let (sx, sy) := (src % 128, src / 128)
  let (w, ea, n, so) := mcRect e
  let col := decide (w ≤ x ∧ x ≤ ea)
  let take (b : Bool) (i : Nat) : List Nat := if b then [i] else []
  take (col && decide (y ≤ sy ∧ n < y)) 0 ++ take (decide (y = sy ∧ sx ≤ x ∧ x < ea)) 1 ++
    take (col && decide (sy ≤ y ∧ y < so)) 2 ++ take (decide (y = sy ∧ x ≤ sx ∧ w < x)) 3 ++
    take (col && decide (n ≤ y ∧ y ≤ so)) 4

/-- Targets that a branch at router c reaches. -/
def mcReach (c e branch : Nat) : List Nat :=
  let (x, y) := (c % 128, c / 128)
  (routeTargets e).filter (fun t =>
    let (tx, ty) := (t % 128, t / 128)
    match branch with
    | 0 => decide (tx = x ∧ ty < y)
    | 1 => decide (x < tx)
    | 2 => decide (tx = x ∧ y < ty)
    | 3 => decide (tx < x)
    | _ => decide (t = c))

/-- The input of router c by which a multicast comes: 0 north to 3 west, 4 its own cluster. -/
def mcInput (c src : Nat) : Nat :=
  let (x, y) := (c % 128, c / 128)
  let (sx, sy) := (src % 128, src / 128)
  if c = src then 4 else if y = sy then (if x < sx then 1 else 3) else if y < sy then 2 else 0

/-- MULTICAST_REPLICATE (R341, R342, R767): a router copies a multicast message, sent by route entry `entry` of its source,
into the branches of `room`; a branch without room holds it, and the next multicast of that input waits behind it. A
branch that cannot be forwarded is refused target by target: NOROUTE as the message comes, LINKDOWN where it waited (R344, R345). -/
def execMulticastReplicate (c : Nat) (m : PMsg) (entry : Nat) (room : List Nat) (s : State) : Host.Outcome State Fault Refusal :=
  let cl := cluAt c s
  let e := SMap.get 0 (cluAt m.tag.scl s).rte entry
  let inp := mcInput c m.tag.scl
  let here (h : Nat × Nat × Nat × List Nat) : Bool := decide (h.1 = m.tag.scl ∧ h.2.1 = m.id)
  if cl.mcast.any (fun h => !here h && h.2.2.1 == inp) then .next s
  else
    let old := cl.mcast.find? here
    let left := match old with
      | some h => h.2.2.2
      | none => mcBranches c m.tag.scl e
    let bad := left.filter (fun b => b < 4 && linkBad c b s)
    let go := left.filter (fun b => !bad.contains b && room.contains b)
    let rest := left.filter (fun b => !bad.contains b && !room.contains b)
    let s := bad.foldl (fun s b => (mcReach c e b).foldl (fun s t => refuse c m t (if old.isSome then rsLINKDOWN else rsNOROUTE) s) s) s
    let s := go.foldl (fun s b => passOn c b { m with tag := { m.tag with vc := 1 } } [entry] s) s
    let others := cl.mcast.filter (fun h => !here h)
    .next (updClu c (fun cl => { cl with mcast := if rest.isEmpty then others else others ++ [(m.tag.scl, m.id, inp, rest)] }) s)

-- Links and cluster fences (R344, R345) ------------------------------------------------------------------------------------

/-- The messages that wait at a router for a port lose it: each is refused LINKDOWN, a multicast for each target of that branch (R344). -/
def dropHeld (c port : Nat) (s : State) : State :=
  let hit := (cluAt c s).mcast.filter (fun h => h.2.2.2.contains port)
  let s := hit.foldl (fun s h => match (cluAt h.1 s).sent.find? (fun m => m.id = h.2.1) with
    | none => s
    | some m => (mcReach c (SMap.get 0 (cluAt h.1 s).rte m.entry) port).foldl (fun s t =>
      refuseTo c (tagTo h.1 srcNone c m.kind 0 1 s) h.2.1 t rsLINKDOWN m.blks.length s) s) s
  let s := ((cluAt c s).held.filter (fun h => h.1 = port)).foldl (fun s h => refuse c h.2 h.2.tag.dcl rsLINKDOWN s) s
  let s := if (cluAt c s).held.isEmpty then s else updClu c (fun cl => { cl with held := cl.held.filter (fun h => h.1 ≠ port) }) s
  updClu c (fun cl => { cl with mcast := (cl.mcast.map (fun h => (h.1, h.2.1, h.2.2.1, h.2.2.2.filter (· ≠ port)))).filter (fun h => !h.2.2.2.isEmpty) }) s

/-- A write of CLU_NETCTL.RFENCE (R345): from the next step boundary, or at once where no image runs (R38). -/
def rfenceWrite (c : Nat) (v : Bool) (s : State) : State :=
  let was := (cluAt c s).fenceReq
  let s := wb (.clu c) 0x314 16 v (updClu c (fun cl => { cl with fenceReq := v }) s)
  let s := if v && !was then writeRec { kind := 9, cluster := c, pitch := pitchOfClu c s } s else s
  if atBoundary c s then boundary c s else s

/-- Firmware fences the cluster of a router that it judges failed (R524). -/
def routerFailed (c : Nat) (s : State) : State := if (cluAt c s).fenceReq then s else rfenceWrite c true s

/-- A link declared down counts against the routers at both ends: a router with two links down within a millisecond is judged failed (R524). -/
def judgeLink (c d : Nat) (s : State) : State :=
  let a := min c d
  let b := max c d
  let l := (now s, a, b) :: s.downs.filter (fun e => decide (now s ≤ e.1 + millisecond) && decide (e.2 ≠ (a, b)))
  [c, d].foldl (fun s x =>
    if decide (x < 16384) && decide (2 ≤ (l.filter (fun e => e.2.1 = x ∨ e.2.2 = x)).length) then routerFailed x s else s) { s with downs := l }

/-- The link test of the unit routers after a link of the unit mesh is down (R524): its outcome is physical, and a free value decides it. -/
def judgeUnitLink (c : Nat) (s : State) : State :=
  let (w, s) := takeFree s
  if w % 2 = 1 then routerFailed c s else s

/-- LINK_DOWN (R344, R367, R524): port 0 to 3 is the cluster-mesh link of that port, port 4 the link of the unit level between two nodes. -/
def execLinkDown (c port : Nat) (ends : Nat × Nat) (s : State) : Host.Outcome State Fault Refusal :=
  let row := linkRow c ends.1 ends.2 s
  let b := if port < 4 then port else 4 + row
  let down := rb (.clu c) 0x320 b s
  if 4 < port ∨ (if port < 4 then down else !unitLink ends.1 ends.2 || unitDown c ends.1 ends.2 s) then .next s
  else
    let s := if port < 4 then dropHeld c port s
      else updClu c (fun cl => { cl with
        umDown := (ends.1, ends.2, row) :: (if down then cl.umDown else cl.umDown.filter (fun e => e.2.2 ≠ row)) }) s
    let s := wb (.clu c) 0x320 b true s
    let s := fire 73 (writeRec { kind := 0x0B, cluster := c, pitch := pitchOfClu c s } s)
    .next (if port < 4 then judgeLink c ((neighbour c port).getD anon) s else judgeUnitLink c s)

/-- CLUSTER_FENCE (R345). -/
def execClusterFence (q : Requester) (c : Nat) (s : State) : Host.Outcome State Fault Refusal :=
  .next (guardWrite q (.clu c) 0x314 (rfenceWrite c true) s)

end Sys2Proof.Machine
end

