-- ==== Sys2Proof/Machine/Guyline.lean ====
section
/-! DEFINITION. The Guyline (R357–R361): its words and classes, fences, bank switches, and what VERDICT, INTR, COUNTS and
RANGE messages do at the die (R152, R252, R499–R508, R668, R766). -/

namespace Sys2Proof.Machine

/-- GUYLINE_WORD (R357, R359, R371): a word that fails parity is resent up to 3 times; a fourth failure takes the link
down. A message of a reserved class is discarded. -/
def execGuylineWord (cls fails : Nat) (s : State) : Host.Outcome State Fault Refusal :=
  let s := bump pgDie 0x180 15 8 (min 3 fails) s
  if 3 < fails then .next (fire 74 (writeRec { kind := 0x0B } (bump pgDie 0x180 7 0 1 s)))
  else if 0xD < cls then .next (bump pgDie 0x180 23 16 1 s)
  else .next s

/-- EPOCH_MESSAGE (R359): a cluster takes the epoch boundary; rack time is one count in this model. -/
def execEpochMessage (_c : Nat) (s : State) : Host.Outcome State Fault Refusal := .next s

-- Fences (R523, R525) ----------------------------------------------------------------------------------------------

/-- A region fence (R525 order 1): its pages go off, its Stove's operations complete with failed verdicts of origin
STATE, and no new one, chunk or programming row starts. It is lifted only by a reset. -/
def rgnFence (r : Nat) (s : State) : State :=
  let x := rgnAt r s
  if x.fenced then s
  else
    let att := stoveCluster r
    let s := writeRec { kind := 9 } (wb (pgRgn r) 0x008 1 true (setRgn r { x with fenced := true, jobs := [], queue := [] } s))
    let s := x.jobs.foldl (fun s j =>
      let s := fireRgn r 14 (bump (pgStv r) 0x100 15 8 1 s)
      let (w, s) := freeCause s
      let s := sayBlks .portage [att, r, j.slot, j.step, j.desc, w, 0, 0] (j.blks.map (fun b => { b with cause := w })) s
      report att j.step orgState 0 0x7F s) s
    let x := rgnAt r s
    x.stvHold.foldl (fun s e => release r e.2 s) (setRgn r { x with stvHold := [] } s)

/-- FENCE_MESSAGE (R359): a fence or a lift reaches a unit (`slot` below 68), a cluster, or a region. -/
def execFenceMessage (scope index slot : Nat) (lift : Bool) (s : State) : Host.Outcome State Fault Refusal :=
  if scope = 1 then .next (if lift then s else rgnFence index s)
  else if slot < 68 then .next (fenceWrite index slot (!lift) s)
  else .next (rfenceWrite index (!lift) s)

-- Banks and proximity (R256, R257, R346) ----------------------------------------------------------------------------

/-- Hops from a cluster to another along the routing tables of a bank, links down and fences respected; none where no
route reaches it. `fuel` bounds the hops. -/
def hopsTo : Nat → Nat → Nat → Nat → State → Option Nat
  | 0, _, _, _, _ => none
  | fuel + 1, c, dst, bank, s =>
    if c = dst then some 0
    else
      let e := routeEnt c bank dst s
      if !bit e 7 || linkBad c (e % 4) s then none
      else match neighbour c (e % 4) with
        | none => none
        | some d => (hopsTo fuel d dst bank s).map (· + 1)

/-- A proximity word: NOPATH for a fenced port and for one that no route reaches, whose distance reads 0; the distance of a fenced port along the
tables stays (R256). -/
def proxWord (fenced : Bool) (h : Option Nat) : Word :=
  match h with
  | none => word (2 ^ 16)
  | some n => word (b2n fenced * 2 ^ 16 + (if n ≤ 16 then 0 else if n ≤ 48 then 1 else if n ≤ 96 then 2 else 3) * 2 ^ 8 + min n 255)

/-- Entry n of a region's proximity table: stack ports 0–19, then RLP0–4. -/
def proxOf (r n bank : Nat) (s : State) : Word :=
  proxWord (decide (n < 20) && stkFenced n s)
    (hopsTo 16384 (stoveCluster r) (if n < 20 then stkCluster n else portCluster (n - 20)) bank s)

/-- A region's controller recomputes its proximity table (R257). -/
def proxUpdate (r bank : Nat) (s : State) : State :=
  fireRgn r 7 (foldRange 25 (fun n s => wr (pgRgn r) (0x140 + 4 * n) (proxOf r n bank s) s) s)

/-- Clusters of a region. -/
def rgnClusters (r : Nat) : List Nat := (List.range 256).map (clusterOf r)

/-- ROUTESW (R346): every cluster of the region injects with the other bank from its next step boundary, and the
region's proximity table is computed anew. -/
def execRoutesw (r : Nat) (s : State) : Host.Outcome State Fault Refusal :=
  let new := 1 - (cluAt (stoveCluster r) s).bank
  let s := (rgnClusters r).foldl (fun s c =>
    let s := updClu c (fun cl => { cl with bankNext := some (1 - cl.bank) }) s
    if atBoundary c s then boundary c s else s) s
  .next (proxUpdate r new s)

-- Rollback (R502, R503, R766) ------------------------------------------------------------------------------------------

/-- The position in a sequencer's history that reaches step j. -/
def posAt (j : Nat) (hist : List SeqPos) (cur : SeqPos) : SeqPos :=
  if cur.step ≤ j then cur else (hist.find? (fun p => p.step = j)).getD cur

/-- Take a region's sequencer, Stove and transfers of a slot back to step j (R503): what they issued from j on is issued
again. -/
def rollRegion (n j r : Nat) (s : State) : State :=
  updRgn r (fun x => { x with
    seqs := SMap.upd SeqPos.start x.seqs n (posAt j (SMap.get [] x.seqHist n)),
    seqHist := SMap.upd [] x.seqHist n (fun h => h.filter (fun p => p.step < j)),
    samples := SMap.upd 0 x.samples n (min j) }) (dropJobs n j r s)

/-- Mark the failed blocks of a pitch from step j on that wait at a port: their replay brings them again (R504). -/
def dueBlocks (pitch j : Nat) (x : Port) : Port :=
  let mark (e : Egr) : Egr := if e.pitch = pitch ∧ j ≤ e.step ∧ causeFails e.blk.cause then { e with due := true } else e
  let acts (l : List LinkAct) : List LinkAct := l.map (fun a => { a with blks := a.blks.map mark })
  { x with blocks := x.blocks.map mark, held := acts x.held, kept := acts x.kept }

/-- Order a rollback of a slot's pitch to step j (R502, R503, R509): the RECALL with the next generation leaves, the
sequencers go back, and under early egress every port that sent a flit of step j or later owes a RECALL flit. `remote`
marks one that answers another device's recall (R766). -/
def rollback (n j : Nat) (remote : Bool) (s : State) : State :=
  let x := slotAt n s
  let g := (x.gen + 1) % 16
  let s := countDie 0xA1 0 1 (bump pgDie 0x234 31 0 1 s)
  let s := issueDown x [5, j, g] [5, 2, x.pitch, j % 2 ^ 32, g * 2 ^ 28 + b2n remote * 2 ^ 27 + x.pitch * 2 ^ 16 + j / 2 ^ 32 % 2 ^ 16] s
  let s := setSlot n { x with
    gen := g, rollTo := some j, die := posAt j x.dieHist x.die, dieHist := x.dieHist.filter (fun p => p.step < j),
    links := if x.early then x.links.filter (fun l => l.2.2 < j) else x.links } s
  let s := (slotRegions x).foldl (fun s r => rollRegion n j r s) s
  foldRange 13 (fun p s => updPort p (fun y =>
    let y := dueBlocks x.pitch j y
    if x.early && y.kept.any (fun a => decide (a.slot = n ∧ j ≤ a.step)) then { y with owed := y.owed ++ [(n, j)] } else y) s) s

-- Verdicts at the die (R499–R508, R766) ------------------------------------------------------------------------------------

/-- Release a cluster that holds its step for a failure (R502). -/
def freeHold (c : Nat) (s : State) : State := updClu c (fun cl => { cl with hold := false }) s

/-- A failure is final (R502, R507). -/
def finalFailure (c step origin cause pitch pslot : Nat) (s : State) : State :=
  writeRec { kind := 1, origin := origin, cause := cause, pitch := pitch, cluster := c,
             pslot := if pslot = 0x7F then 0xFF else pslot, step := step } (bump pgDie 0x24C 31 0 1 s)

/-- Whether a replayable VERDICT is absorbed by the current rollback (R766). -/
def absorbed (x : Slot) (step gen : Nat) : Bool :=
  match x.rollTo with
  | none => false
  | some r => decide (gen ≠ x.gen ∧ r ≤ step)

/-- A permanent NET failure counts against every router of its route (R524): a router that more than 8 such failures of the last second have in
common, and no other router, is judged failed. -/
def netFailed (c : Nat) (s : State) : State :=
  let path := let p := SMap.get [] s.netPath c; if p.isEmpty then [c] else p
  let l := (now s, path) :: s.netFails.filter (fun e => now s ≤ e.1 + second)
  path.foldl (fun s x =>
    let rs := l.filter (fun e => e.2.contains x)
    if 8 < rs.length && path.all (fun y => y == x || !rs.all (fun e => e.2.contains y)) then routerFailed x s else s) { s with netFails := l }

/-- Whether a permanent failure of a unit has reached rung 4 in its trial: the cluster is released (R515). -/
def ladderSpent (c step pslot : Nat) (s : State) : Bool :=
  decide (rungOf c pslot s = 4) && s.failRecs.any (fun f => decide (f.unit = ukey c pslot ∧ f.step = step) && f.trial)

/-- Forget a unit's failed read of a step. -/
def dropFail (c step pslot : Nat) (s : State) : State :=
  { s with failRecs := s.failRecs.filter (fun f => ¬ (f.unit = ukey c pslot ∧ f.step = step)) }

/-- Whether an origin has no unit of its own in the ladder: NET and PANTRY (R508). -/
def netOrigin (origin : Nat) : Bool := decide (origin = orgNet ∨ origin = orgPantry)

/-- A replayable failure at the die (R502, R508, R515, R766). -/
def replayVerdict (n c step gen origin cause pitch pslot : Nat) (perm : Option Bool) (s : State) : State :=
  let x := slotAt n s
  let net := netOrigin origin
  if x.window < x.slack then
    let s := if net then bump pgDie 0x238 31 0 1 s else s
    freeHold c (finalFailure c step origin cause pitch pslot s)
  else if !net && ladderSpent c step pslot s then freeHold c (finalFailure c step origin cause pitch pslot (dropFail c step pslot s))
  else
    let s := match perm with
      | some b => if net then
          let s := netClass c step origin cause pitch b s
          if b && decide (origin = orgNet) then netFailed c s else s
        else s
      | none => s
    let s := if net then { s with netWait := (c, step, origin, cause, pitch) :: s.netWait.filter (fun e => ¬ (e.1 = c ∧ e.2.1 = step)) } else s
    if absorbed x step gen then s else rollback n step false s

/-- A replayable failure of a pitch that no longer replays is final without a replay, and counts as a transient (R508, R513, R766). -/
def lateFailure (c step origin pslot : Nat) (s : State) : State :=
  if netOrigin origin then bump pgDie 0x238 31 0 1 s
  else if s.failRecs.any (fun f => decide (f.unit = ukey c pslot ∧ f.step = step)) then suspect c pslot false false (dropFail c step pslot s)
  else s

/-- VERDICT (R499, R502, R766): a failed verdict reaches the die. `perm` is how a replay classified a NET or PANTRY failure,
where one has (R508). -/
def execVerdict (c step gen origin cause pitch pslot : Nat) (perm : Option Bool) (s : State) : Host.Outcome State Fault Refusal :=
  let s := countDie 0xA0 pitch 1 (bump pgDie 0x230 31 0 1 s)
  let s := if origin = 7 then bump pgDie 0x180 23 16 1 s else s
  let origin := if origin = 7 then orgState else origin
  match slotOfPitch pitch s with
  | none => .next s
  | some n =>
    let x := slotAt n s
    if x.st = .aborting ∨ x.st = .ended then .next (freeHold c (finalFailure c step origin cause pitch pslot (lateFailure c step origin pslot s)))
    else if replayable origin then .next (replayVerdict n c step gen origin cause pitch pslot perm s)
    else if origin = orgRemote then .next s
    else .next (finalFailure c step origin cause pitch pslot s)

-- INTR, COUNTS, RANGE, REGRSP ---------------------------------------------------------------------------------------------------

/-- INTR (R668): an event of region r's source i reaches Whistle. -/
def execIntr (r i : Nat) (s : State) : Host.Outcome State Fault Refusal := .next (fire (rgnSrc r (i % 16)) s)

/-- COUNTS (R152): a cluster's counts by layer and kind reach the die's layer counters. -/
def execCounts (_c : Nat) (ev : List (Nat × Nat × Nat)) (s : State) : Host.Outcome State Fault Refusal :=
  .next (ev.foldl (fun s e => layerAdd (e.1 % 256) (e.2.1 % 4) e.2.2 s) s)

/-- RANGE (R251, R252): the stream engine marks a batch slot once. The batch is the latest entered by the GATHER's step
that holds a token there. -/
def execRangeMessage (_c step bslot pitch : Nat) (s : State) : Host.Outcome State Fault Refusal :=
  match slotOfPitch pitch s with
  | none => .next s
  | some n =>
    let x := slotAt n s
    let l := (x.exiting.map (·.2) ++ x.batches).filter (fun b => decide (b.entry ≤ step) && b.tokens.any (fun t => t.1 = bslot))
    match l.getLast? with
    | none => .next s
    | some b => .next (if x.marked.contains (b.no, bslot) then s else setSlot n { x with marked := x.marked ++ [(b.no, bslot)] } s)

/-- REGRSP (R361): the answer to a register access over the Guyline reaches its requester; OFF comes with 0. -/
def execRegrsp (q : Requester) (status : Nat) (v : Word) (s : State) : Host.Outcome State Fault Refusal :=
  .next (say .regValue [reqNo q, status, if status = stOK then v.toNat else 0] s)

end Sys2Proof.Machine
end

