-- ==== Sys2Proof/Machine/Twin.lean ====
section
/-! DEFINITION. The double-wall pair (R533–R555): forming, heartbeats, what is mirrored and committed, takeover, and the
stack fence (R388), which meets the pair in R551. -/

namespace Sys2Proof.Machine

/-- Set TWN_STAT.STATE (R554). -/
def setTwn (n : Nat) (s : State) : State := wf pgTwn 0x104 3 0 n s

/-- Set TWN_STAT.ERR (R554). -/
def setTwnErr (n : Nat) (s : State) : State := wf pgTwn 0x104 31 28 n s

/-- ROLE, EN, the partner's identity and this device's (R533, R555, R718). -/
def twnRole (s : State) : Nat := rf pgTwn 0x100 2 1 s
def twnOn (s : State) : Bool := rb pgTwn 0x100 0 s
def twnPartner (s : State) : Nat := rd64 pgTwn 0x108 s
def myIdent (s : State) : Nat := rd64 pgSec 0x108 s

/-- Whether the member's ranges obey R534. -/
def twnRangesOk (s : State) : Bool :=
  let src := (twnSrc s, twnLen s)
  let mir := (twnMir s, twnLen s)
  !overlap src mir && (sysRanges s).all (fun r => !overlap src r && !overlap mir r)

/-- The clusters' MIRROR slots: those whose image has feature MIRROR. -/
def mirrorSlots (s : State) : List Nat := (List.range 16).filter (fun n => bit (slotAt n s).feat 3 && (slotAt n s).allocated)

/-- Mirrored streams of the member's own table. -/
def mirroredStreams (s : State) : List Nat := (s.strms.filter (fun e => e.2.ent.mirrored && e.2.ent.state ≠ 0)).map (·.1)

/-- Forget what commits wait for: the member no longer commits (R539). -/
def dropCommits (s : State) : State :=
  let s := foldRange 16 (fun n s => updSlot n (fun x => { x with commits := [] }) s) s
  { s with twn := { s.twn with waits := [] } }

/-- PAIR_ENABLE (R538, R553): TWN_CTRL.EN is written with 1. A member that is enabled stays as it is. With ROLE none the write is discarded and
recorded. -/
def pairOn (s : State) : State :=
  if twnOn s then s
  else if twnRole s = 0 then recordErr pgTwn errFIELD s
  else setTwnErr (if twnRangesOk s then 0 else 4) (setTwn 1 (wb pgTwn 0x100 0 true s))

/-- TWN_CTRL.EN is written with 0: the member is OFF (R538). -/
def pairOff (s : State) : State :=
  setTwnErr 0 (setTwn 0 (wb pgTwn 0x100 0 false (dropCommits { s with twn := { Twin.off with commitNo := s.twn.commitNo } })))

/-- PAIR_ENABLE (R538, R553): EN of a locked page stays as it is (R744). -/
def execPairEnable (q : Requester) (s : State) : Host.Outcome State Fault Refusal :=
  .next (guardWrite q pgTwn 0x100 (fun s => if locked pgTwn s then recordErr pgTwn errLOCKWR s else pairOn s) s)

/-- Enter SYNC (R538, R552): STREAM items of every mirrored stream leave. The partner's SRCBASE reaches the member by no means
the spec names and is free. -/
def syncEnter (s : State) : State :=
  let (w, s) := takeFree s
  let s := setTwnErr 0 (setTwn 2 { s with twn := { s.twn with
    heartAt := now s, psrc := w % 11520 * 2 ^ 26, ents := [], entsNew := [], slots := [], slotsNew := [], ackDue := [], log := [],
    handed := [] } })
  (mirroredStreams s).foldl (fun s sid => mirrorFlit 1 1 (entBytes (strmAt sid s).ent sid) s) s

/-- The twin port has passed IDENT with an identity (R538, R554): FORMING notes a wrong one; ALONE and SPLIT see the partner
again. -/
def twinSeen (id : Nat) (s : State) : State :=
  if id ≠ twnPartner s then (if twnState s = 1 then setTwnErr 3 s else s)
  else if twnState s = 6 ∨ twnState s = 7 then syncEnter s
  else s

-- Heartbeats (R546, R547) ------------------------------------------------------------------------------------------------

/-- A heartbeat with a state code (R546). -/
def heartBody (code : Nat) (s : State) : List Byte :=
  leBytes 8 (myIdent s) ++ leBytes 1 (twnRole s) ++ leBytes 1 code ++ leBytes 2 0 ++ leBytes 4 (rf pgTwn 0x118 13 0 s) ++
    leBytes 8 (now s) ++ leBytes 8 s.twn.ackSent

/-- Send a heartbeat, where the twin port may send it now. -/
def sendHeart (code : Nat) (s : State) : State :=
  let f := nearFlit ftHeart 2 (slice (heartBody code s) 0 608) s
  let s := { s with twn := { s.twn with sentAt := now s } }
  if maySend 4 f s then sendNow 4 f s else s

/-- HEART_SEND (R546): every 100 µs at the member's phase, in FORMING, SYNC, PAIRED and SUSPECT. -/
def execHeartSend (s : State) : Host.Outcome State Fault Refusal :=
  let phase := if twnRole s = 1 then 0 else 50 * usec
  if twnState s = 0 ∨ 4 < twnState s ∨ now s % (100 * usec) ≠ phase ∨ (s.twn.sentAt = now s ∧ now s ≠ 0) then .next s
  else .next (sendHeart (twnState s) s)

-- Takeover (R548, R549) ------------------------------------------------------------------------------------------------------

/-- A committed SLOT item of the partner. -/
def peerSlot (n : Nat) (s : State) : SlotItem := SMap.get SlotItem.none s.twn.slots n

/-- The local slot that a partner slot binds to (R548 order 2): RUNNING, the same image digest, and the manifest digest of the
committed PTR's plane on the plane that its own PTR names. -/
def boundSlot (n : Nat) (s : State) : Option Nat :=
  let i := peerSlot n s
  let model := if i.ptr = 0 then i.model0 else i.model1
  firstBelow 16 (fun k => let x := slotAt k s
    decide (x.st = .running) && x.digest == i.digest && (slotUnits x).all (fun (c, u) => residentUnder c u x.ptr model s))

/-- Take one stream of the partner into a local slot (R548 order 3). -/
def takeStream (sid n : Nat) (s : State) : State :=
  let e := SMap.get StreamEnt.free s.twn.ents sid
  let e := { e with kvbase := twnMir s + (e.kvbase - s.twn.psrc), slot := n, taken := true, mirrored := false, seqin := e.seqout }
  let s := setStrm sid ((strmAt sid s).opened e) { s with twn := { s.twn with
    ents := SMap.set StreamEnt.free s.twn.ents sid StreamEnt.free, held := s.twn.held.filter (· ≠ sid) } }
  fillNext n s

/-- Take a stream where its slot is bound, or hold it: whether it was taken. -/
def takeOrHold (sid : Nat) (s : State) : Bool × State :=
  match boundSlot (SMap.get StreamEnt.free s.twn.ents sid).slot s with
  | some n => (true, takeStream sid n s)
  | none => (false, { s with twn := { s.twn with held := sid :: s.twn.held.filter (· ≠ sid) } })

/-- Take streams of the partner: how many were taken, and the counts of TWN_TAKEN and TWN_WAITIMG (R548 order 3). -/
def takeStreams (sids : List Nat) (s : State) : State :=
  let (k, s) := sids.foldl (fun (a : Nat × State) sid =>
    let (t, s) := takeOrHold sid a.2; (a.1 + b2n t, s)) (0, s)
  wr pgTwn 0x12C (word s.twn.held.length) (wr pgTwn 0x128 (word k) s)

/-- Streams OPEN in the committed entries of the partner. -/
def peerOpen (s : State) : List Nat := (s.twn.ents.filter (fun e => e.2.state = 1)).map (·.1)

/-- A message from its bytes (R563). -/
def msgFrom (b : List Byte) : DMsg :=
  { cls := leAt b 0 1, op := leAt b 1 1, status := leAt b 2 1, sid := leAt b 8 3, seq := leAt b 12 4,
    body := slice (b.drop 32) 0 (leAt b 4 4) }

/-- Put a message behind those that wait to leave on Dzit (R563). -/
def queueMsg (m : DMsg) (s : State) : State := { s with dz := { s.dz with txq := s.dz.txq ++ [m] } }

/-- Orders 2 to 5 of R548 for streams of the partner: those whose slot is bound are taken, the event with the counts and the result log leave, and
TWN_TAKEOVER is raised. -/
def takeOrders (sids : List Nat) (s : State) : State :=
  let s := takeStreams sids s
  let s := pushEvent 3 (leBytes 8 (twnPartner s) ++ leBytes 4 (rd pgTwn 0x128 s).toNat ++ leBytes 4 s.twn.held.length) s
  fire 91 ((s.twn.log.filter (fun e => e.1 < s.twn.ackSent)).foldl (fun s e => queueMsg (msgFrom e.2) s) s)

/-- The takeover (R548): streams are taken, the event and the result log leave, and the member is ALONE. -/
def takeover (s : State) : State :=
  let s := { s with twn := { s.twn with entsNew := [], slotsNew := [], ackDue := [] } }
  let s := dropCommits (setTwn 5 s)
  let s := takeOrders (peerOpen s) s
  setTwn 6 { s with twn := { s.twn with log := [] } }

/-- Whether a heartbeat passes the checks of FORMING, and the error code where it does not (R538, R554). -/
def formingErr (m : HeartMsg) (s : State) : Nat :=
  if !twnRangesOk s then 4 else if m.role = twnRole s then 1 else if m.len ≠ rf pgTwn 0x118 13 0 s then 2 else 0

/-- HEART (R538, R546, R547): a heartbeat of the partner. In FORMING, over a link that has passed IDENT, both members make the
same comparison; a device whose identity is not endorsed forms no pair (R695). In SUSPECT it restores the state, or, LEAVING,
confirms the loss. -/
def execHeart (m : HeartMsg) (s : State) : Host.Outcome State Fault Refusal :=
  if m.ident ≠ twnPartner s ∨ twnState s = 0 then .next s
  else
    let s := { s with twn := { s.twn with heartAt := now s } }
    if m.state = 0xFF then .next (if twnState s = 3 ∨ twnState s = 4 then takeover s else s)
    else match twnState s with
    | 1 =>
      if !portUp 4 s || decide (rd64 (pgRlp 4) 0x10C s ≠ twnPartner s) || !rb pgSec 0x100 22 s then .next s
      else match formingErr m s with
        | 0 => .next (syncEnter s)
        | k => .next (setTwnErr k s)
    | 4 => .next (setTwn s.twn.back s)
    | _ => .next s

/-- HEART_TIMEOUT (R547, R602): 350 µs without a HEART take SYNC and PAIRED to SUSPECT. -/
def execHeartTimeout (s : State) : Host.Outcome State Fault Refusal :=
  if (twnState s ≠ 2 ∧ twnState s ≠ 3) ∨ now s < s.twn.heartAt + 350 * usec then .next s
  else
    let s := setTwn 4 { s with twn := { s.twn with back := twnState s } }
    .next (fire 89 (writeRec { kind := 0x0B } s))

/-- Whether a write of TWN_CONFIRM counts: in SUSPECT, with the partner's first bytes (R555). -/
def confirmOk (id : Nat) (s : State) : Bool := decide (twnState s = 4 ∧ id = twnPartner s % 2 ^ 24)

/-- A write of CONFIRM: the takeover (R547, R551, R555). -/
def confirmWrite (id : Nat) (s : State) : State := if confirmOk id s then takeover s else recordErr pgTwn errFIELD s

/-- A write of DENY: the member is SPLIT (R538, R547, R555). -/
def denyWrite (id : Nat) (s : State) : State := if confirmOk id s then fire 90 (dropCommits (setTwn 7 s)) else recordErr pgTwn errFIELD s

/-- CONFIRM (R547, R548, R551, R555). -/
def execConfirm (q : Requester) (id : Nat) (s : State) : Host.Outcome State Fault Refusal := .next (guardWrite q pgTwn 0x11C (confirmWrite id) s)

/-- DENY (R538, R547, R555). -/
def execDeny (q : Requester) (id : Nat) (s : State) : Host.Outcome State Fault Refusal := .next (guardWrite q pgTwn 0x11C (denyWrite id) s)

/-- HELD_STREAM_TAKE (R549): a held stream is taken once a local slot that it binds to is RUNNING. -/
def execHeldStreamTake (sid : Nat) (s : State) : Host.Outcome State Fault Refusal :=
  if !s.twn.held.contains sid then .next s
  else
    let (_, s) := takeOrHold sid s
    .next (wr pgTwn 0x12C (word s.twn.held.length) s)

-- Commits (R542–R544) -----------------------------------------------------------------------------------------------------------

/-- Send a COMMIT of a slot at a step, its SLOT item ahead of it (R540, R542). -/
def sendCommit (n step : Nat) (s : State) : State :=
  let s := mirrorSlotItem n s
  let no := s.twn.commitNo + 1
  let s := { s with twn := { s.twn with commitNo := no, waits := s.twn.waits ++ [(no, n, step)] } }
  mirrorFlit 4 1 (leBytes 8 no ++ leBytes 6 step ++ leBytes 1 n) s

/-- COMMIT_SEND (R542): the oldest MCOMMIT step of a slot that the published floor has passed. -/
def execCommitSend (slot : Nat) (s : State) : Host.Outcome State Fault Refusal :=
  let x := slotAt slot s
  match x.commits with
  | [] => .next s
  | k :: rest => if commitsWait s && decide (k < x.floor) then .next (sendCommit slot k (setSlot slot { x with commits := rest } s)) else .next s

/-- Whether the member takes mirrored items (R538, R540). -/
def takesItems (s : State) : Bool := mirrors s

/-- MIRROR_STREAM (R540): entries of the partner's mirrored streams wait for the next COMMIT. -/
def execMirrorStream (ents : List (Nat × StreamEnt)) (s : State) : Host.Outcome State Fault Refusal :=
  .next (if takesItems s then { s with twn := { s.twn with entsNew := s.twn.entsNew ++ ents } } else s)

/-- MIRROR_WRITE (R533, R540, R672): bytes of the partner's source range land in the mirror area at once; one that touches its last 64 KiB,
the twin mailbox, raises TWN_EVENT. -/
def execMirrorWrite (src : Nat) (data : List Byte) (s : State) : Host.Outcome State Fault Refusal :=
  if takesItems s ∧ s.twn.psrc ≤ src ∧ src + data.length ≤ s.twn.psrc + twnLen s then
    let at_ := twnMir s + (src - s.twn.psrc)
    let mail := decide (0 < data.length ∧ twnMir s + twnLen s < at_ + data.length + 65536)
    let s := stackWrite at_ data s
    .next (if mail then fire 93 s else s)
  else .next s

/-- MIRROR_SLOT (R540): a slot item of the partner waits for the next COMMIT. -/
def execMirrorSlot (i : SlotItem) (s : State) : Host.Outcome State Fault Refusal :=
  .next (if takesItems s then { s with twn := { s.twn with slotsNew := s.twn.slotsNew ++ [(i.slot, i)] } } else s)

/-- MIRROR_COMMIT (R543): the items before a COMMIT are applied, and its ACK is due. Where in the mirror area they are written
is not stated, so no byte of memory is. -/
def execMirrorCommit (num _step _slot : Nat) (s : State) : Host.Outcome State Fault Refusal :=
  if !takesItems s then .next s
  else
    let t := s.twn
    .next { s with twn := { t with
      ents := t.entsNew.foldl (fun m e => SMap.set StreamEnt.free m e.1 e.2) t.ents, entsNew := [],
      slots := t.slotsNew.foldl (fun m e => SMap.set SlotItem.none m e.1 e.2) t.slots, slotsNew := [],
      inNo := num, ackDue := t.ackDue ++ [num] } }

/-- COMMIT_ACK_SEND (R543, R544, R551): the ACK of the oldest COMMIT leaves, unless a fence covers part of the mirror area; the
result log keeps what came before the last two COMMITs acknowledged, and streams handed over are taken. -/
def execCommitAckSend (s : State) : Host.Outcome State Fault Refusal :=
  match s.twn.ackDue with
  | [] => .next s
  | no :: rest =>
    if rangeFenced (twnMir s) (twnLen s) s then .next s
    else
      let t := s.twn
      let s := { s with twn := { t with ackDue := rest, ackSent := no, log := t.log.filter (fun e => no ≤ e.1 + 2), handed := if rest.isEmpty then [] else t.handed } }
      let s := mirrorFlit 6 1 (leBytes 8 no) s
      .next (if rest.isEmpty ∧ !t.handed.isEmpty then takeOrders t.handed s else s)

/-- MIRROR_RESULT (R544): a result of the partner's mirrored stream enters the result log. -/
def execMirrorResult (msg : List Byte) (s : State) : Host.Outcome State Fault Refusal :=
  .next (if takesItems s then { s with twn := { s.twn with log := s.twn.log ++ [(s.twn.inNo, msg)] } } else s)

/-- MIRROR_ACK (R544, R555): the partner has acknowledged a COMMIT: results held for its step are free. -/
def execMirrorAck (num : Nat) (s : State) : Host.Outcome State Fault Refusal :=
  let (got, wait) := s.twn.waits.partition (fun w => decide (w.1 ≤ num))
  if got.isEmpty then .next s
  else
    let s := wr pgTwn 0x124 (word num) (countDie 0xA9 0 got.length { s with twn := { s.twn with waits := wait } })
    .next (got.foldl (fun s w => updSlot w.2.1 (fun x => { x with covered := max x.covered (w.2.2 + 1) }) s) s)

/-- MIRROR_HANDOFF (R551): the partner hands over streams whose caches its fence has lost; they are taken once the COMMIT before
the HANDOFF is acknowledged. The pair's state stays (DEDUCED, log entry 79). -/
def execMirrorHandoff (sids : List Nat) (s : State) : Host.Outcome State Fault Refusal :=
  if !takesItems s then .next s
  else if s.twn.ackDue.isEmpty then .next (takeOrders sids s)
  else .next { s with twn := { s.twn with handed := s.twn.handed ++ sids } }

/-- Send the whole source range as WRITE items in address order (R552). -/
def sendCopy (s : State) : State :=
  foldRange ((twnLen s + 575) / 576) (fun i s =>
    let p := twnSrc s + 576 * i
    let k := min 576 (twnSrc s + twnLen s - p)
    mirrorFlit 2 1 (leBytes 5 p ++ leBytes 2 k ++ leBytes 17 0 ++ memRead p k s) s) s

/-- SYNC_COMPLETE (R538, R552): the copy has left in address order, one COMMIT for each MIRROR slot closes it, and the member is
PAIRED. -/
def execSyncComplete (s : State) : Host.Outcome State Fault Refusal :=
  if twnState s ≠ 2 then .next s
  else
    let s := sendCopy s
    let s := (mirrorSlots s).foldl (fun s n => sendCommit n (slotAt n s).floor s) s
    .next (fire 92 (setTwn 3 s))

-- The stack fence (R388, R551) ----------------------------------------------------------------------------------------------------

/-- Streams whose caches touch a range. -/
def streamsOn (base len : Nat) (s : State) : List Nat :=
  (s.strms.filter (fun e => e.2.ent.state = 1 && overlap (e.2.ent.kvbase, e.2.ent.kvcap * e.2.ent.kvpos) (base, len))).map (·.1)

/-- In PAIRED, mirrored streams on a fenced part of the source range go to the partner: one COMMIT of every MIRROR slot, then
HANDOFF; they are FREE here (R551). -/
def handOff (base len : Nat) (s : State) : State :=
  let sids := (streamsOn base len s).filter (fun sid => (strmAt sid s).ent.mirrored)
  if twnState s ≠ 3 ∨ !overlap (twnSrc s, twnLen s) (base, len) then s
  else
    let s := (mirrorSlots s).foldl (fun s n => sendCommit n (slotAt n s).floor s) s
    let s := (chunks 150 sids).foldl (fun s l => mirrorFlit 7 l.length (l.flatMap (leBytes 4)) s) s
    sids.foldl (fun s sid => setStrm sid (strmAt sid s).gone s) s

/-- A write of STK_CTRL.FENCE with 1 (R388, R41): images with an extent in the range are aborted, streams with a cache there end
with STACKLOST or go to the partner, and the stream table continues on its other copy. -/
def stackFenceWrite (n : Nat) (s : State) : State :=
  if stkFenced n s then s
  else
    let (base, len) := stackRange n s
    let s := writeRec { kind := 9 } (wb (pgStk n) 0x104 0 false (wb (pgStk n) 0x100 0 true s))
    let s := updStk n (fun k => { k with fencing := true }) s
    let s := handOff base len s
    let hit := (List.range 16).filter (fun k => let x := slotAt k s; x.st.holds && x.extents.any (fun e => overlap e (base, len)))
    let s := hit.foldl (fun s k => match (slotAt k s).st with
      | .ready => endSlot k stABORTED 1 s
      | .running | .draining => abortSlot k s
      | _ => s) s
    let s := (streamsOn base len s).foldl (fun s sid => endStream sid stSTACKLOST s) s
    if n = 9 ∨ n = 19 then fire 76 s else s

/-- STACK_FENCE (R388). -/
def execStackFence (q : Requester) (n : Nat) (s : State) : Host.Outcome State Fault Refusal :=
  .next (guardWrite q (pgStk n) 0x100 (stackFenceWrite n) s)

/-- STACK_FENCE_COMPLETE (R388 order 6): no image with an extent in the range still aborts; the stack is in self refresh, FENCED,
and the proximity tables read NOPATH for it. -/
def execStackFenceComplete (n : Nat) (s : State) : Host.Outcome State Fault Refusal :=
  let (base, len) := stackRange n s
  let busy := (List.range 16).any (fun k => let x := slotAt k s
    decide (x.st = .aborting) && x.extents.any (fun e => overlap e (base, len)))
  if !(stkAt n s).fencing || busy then .next s
  else
    let s := updStk n (fun k => { k with fencing := false }) s
    let s := wb (pgStk n) 0x104 2 true (wb (pgStk n) 0x104 1 true s)
    .next (foldRange 64 (fun r s => wb (pgRgn r) (0x140 + 4 * n) 16 true s) s)

end Sys2Proof.Machine
end

