-- ==== Sys2Proof/Machine/DzLink.lean ====
section
/-! DEFINITION. The Dzit link (R556–R564, R584–R587): frames, slots and their replay, credits, training; the reference state's changes
(R596). -/

namespace Sys2Proof.Machine

/-- Change the reference state (R596). -/
def setRef (n : Nat) (s : State) : State :=
  if rf pgClk 0x100 2 0 s = n then s
  else fire 95 (bump pgClk 0x110 31 0 1 (wf pgClk 0x100 2 0 n { s with refAt := now s }))

/-- DZT_STAT.STATE (R587): 0 DOWN, 1 TRAIN, 2 UP, 3 DEGRADED. -/
def dzState (s : State) : Nat := rf pgDzt 0x104 1 0 s

/-- Whether the Dzit link carries slots (R561). -/
def dzUp (s : State) : Bool := decide (2 ≤ dzState s)

/-- Whether compatibility mode is in force (R585). -/
def dzCompat (s : State) : Bool := rb pgDzt 0x104 14 s

/-- Change the Dzit link. -/
def updDz (f : Dzit → Dzit) (s : State) : State := { s with dz := f s.dz }

/-- Slots that a frame carries in a direction (R560). -/
def frameSlots (s : State) : Nat := match dzState s with
  | 2 => 164
  | 3 => 82
  | _ => 0

/-- The lanes that a set of good lanes puts in service: the lowest 8, or the lowest 4, or none (R560). -/
def dzLanesOf (good : Nat) : Nat :=
  let l := (List.range 9).filter (fun i => bit good i)
  let n := if 8 ≤ l.length then 8 else if 4 ≤ l.length then 4 else 0
  sumN ((l.take n).map (fun i => 2 ^ i))

/-- The bytes of a message with the credits it returns, and its CRC (R563). -/
def DMsg.bytes (m : DMsg) (cred : List Nat) : List Byte :=
  let head (crc : Nat) : List Byte :=
    leBytes 1 m.cls ++ leBytes 1 m.op ++ leBytes 1 m.status ++ leBytes 1 0 ++ leBytes 4 m.body.length ++ leBytes 3 m.sid ++ leBytes 1 0 ++
      leBytes 4 m.seq ++ (List.range 8).flatMap (fun i => leBytes 1 (nth 0 cred i)) ++ leBytes 4 crc ++ leBytes 4 0
  head (crc32c (head 0 ++ m.body)) ++ m.body

/-- Slots of a message with a body of n bytes (R563). -/
def msgSlots (n : Nat) : Nat := (32 + n + 639) / 640

/-- The link leaves UP or DEGRADED: the message partly sent, and the one partly received, are lost (R562); the reference leaves MARKS
(R596). -/
def dzLeave (s : State) : State :=
  let s := updDz (fun d => { d with cur := none, rxLeft := 0, lanemap := none, resends := 0 }) s
  if rf pgClk 0x100 2 0 s = 2 then setRef 1 s else s

/-- Set state and lanes of the link (R587). -/
def dzSet (st lanes : Nat) (s : State) : State := wf pgDzt 0x104 1 0 st (wf pgDzt 0x104 12 4 lanes s)

/-- Enter TRAIN (R561). -/
def dzTrain (s : State) : State := wb pgDzt 0x100 3 false (dzSet 1 0 (dzLeave s))

/-- Enter DOWN (R561); the next try is 10 ms away. -/
def dzDown (s : State) : State :=
  updDz (fun d => { d with good := 0, tryAt := now s + 10 * msec, synced := false }) (wb pgDzt 0x104 13 false (dzSet 0 0 (dzLeave s)))

/-- Send a slot that is in the replay buffer. -/
def slotOut (d : DSent) (s : State) : State :=
  match d.msg with
  | none => say .dzitMsg (d.lseq :: 0 :: d.cred) s
  | some m => sayBytes .dzitMsg [d.lseq, m.cls, d.part] (slice (m.bytes d.cred) (640 * d.part) 640) s

/-- Resend the slots not acknowledged (R448, R559). -/
def resendSlots (s : State) : State :=
  let n := s.dz.sent.length
  let s := countDie 0x8A 0 n (bump pgDzt 0x110 31 0 n (updDz (fun d => { d with sent := d.sent.map (fun e => { e with time := now s }) }) s))
  s.dz.sent.foldl (fun s e => slotOut e s) s

/-- Resend, or retrain after 8 resends without progress (R449, R561). -/
def dzResend (s : State) : State :=
  if s.dz.sent.isEmpty then s
  else if 8 ≤ s.dz.resends then dzTrain s
  else resendSlots (updDz (fun d => { d with resends := d.resends + 1 }) s)

-- Sending (R557, R563, R564) ------------------------------------------------------------------------------------------------------

/-- Credits that the next first slot returns: up to 255 of each class (R563). -/
def credTake (d : Dzit) : List Nat := (List.range 8).map (fun i => if i = 0 then 0 else min 255 (SMap.get 0 d.back i))

/-- Move credits from those owed to those that the host holds. -/
def credGive (l : List Nat) (d : Dzit) : Dzit :=
  l.zipIdx.foldl (fun d (n, i) =>
    { d with back := SMap.upd 0 d.back i (· - n), host := SMap.upd 0 d.host i (· + n) }) d

/-- The first waiting message whose class holds the credits it needs; within a class messages keep their order (R564, R569). -/
def nextMsg (d : Dzit) : Option DMsg :=
  (d.txq.zipIdx.find? (fun (m, i) =>
    decide (msgSlots m.body.length ≤ SMap.get 0 d.cred m.cls) && !(d.txq.take i).any (fun e => e.cls == m.cls))).map (·.1)

/-- Number a slot, keep it in the replay buffer and send it (R448, R559). -/
def slotSend (m : Option DMsg) (part : Nat) (cred : List Nat) (s : State) : State :=
  let e : DSent := { lseq := s.dz.seqOut, msg := m, part := part, cred := cred, time := now s }
  countDie 0x88 0 1 (slotOut e (updDz (fun d => { d with seqOut := (d.seqOut + 1) % 4096, sent := d.sent ++ [e] }) s))

/-- Fill the slots of a frame: the message in progress, the next message that may leave, or an IDLE slot while credits are owed. -/
def fillSlots : Nat → State → State
  | 0, s => s
  | fuel + 1, s =>
    if 1024 ≤ s.dz.sent.length then s
    else
      let s := match s.dz.cur, nextMsg s.dz with
        | none, some m =>
          updDz (fun d => { d with cur := some (m, 0), txq := d.txq.erase m, cred := SMap.upd 0 d.cred m.cls (· - msgSlots m.body.length) }) s
        | _, _ => s
      match s.dz.cur with
      | some (m, part) =>
        let cred := if part = 0 then credTake s.dz else []
        let s := updDz (fun d => { credGive cred d with cur := if part + 1 < msgSlots m.body.length then some (m, part + 1) else none }) s
        fillSlots fuel (slotSend (some m) part cred s)
      | none =>
        let cred := credTake s.dz
        if cred.all (· == 0) then s else fillSlots fuel (slotSend none 0 cred (updDz (credGive cred) s))

/-- SYNC of a start-of-frame mark: fourteen words 0xA53C, then 0x5AC3, word k in bits [16k + 15:16k] (R758). -/
def syncBits : Nat := sumN ((List.range 14).map (fun k => 0xA53C * 2 ^ (16 * k))) + 0x5AC3 * 2 ^ 224

/-- A start-of-frame mark of 480 bits on a lane (R558); bit 0 is sent first (R758). -/
def sofBits (lane frame time : Nat) : Nat := syncBits + lane * 2 ^ 240 + frame * 2 ^ 244 + time * 2 ^ 276

/-- The marks of a frame, 60 bytes for each active lane in lane order, the same but for LANE (R558). -/
def sofBytes (lanes frame time : Nat) : List Byte :=
  ((List.range 9).filter (fun i => bit lanes i)).flatMap (fun i => leBytes 60 (sofBits i frame time))

/-- FRAME_SEND (R557, R558, R609): every 1.000 µs, a mark with the frame number and rack time (0 in compatibility mode), then slots. A
slot that has waited 4 µs for its acknowledgement is resent first (R449). -/
def execFrameSend (s : State) : Host.Outcome State Fault Refusal :=
  let due := match s.dz.frameAt with
    | none => true
    | some t => decide (t + usec ≤ now s)
  if dzState s = 0 ∨ inService s ∨ !due then .next s
  else
    let s := updDz (fun d => { d with frame := (d.frame + 1) % 2 ^ 32, frameAt := some (now s) })
      (let time := if dzCompat s then 0 else now s
       let lanes := rf pgDzt 0x104 12 4 s
       sayBytes .dzitFrame [s.dz.frame, time, lanes] (sofBytes lanes s.dz.frame time) s)
    let late := match s.dz.sent with
      | [] => false
      | e :: _ => dzUp s && decide (e.time + 4 * usec ≤ now s)
    let s := if late then dzResend s else s
    .next (fillSlots (frameSlots s) s)

-- Answers (R563, R564, R569, R575) ------------------------------------------------------------------------------------------------

/-- Answer a request: the credits of its n body bytes go back, and the response waits to leave (R563, R564). -/
def answer (cls op status : Nat) (h : DHdr) (n : Nat) (body : List Byte) (s : State) : State :=
  queueMsg { cls := cls, op := op, status := status, sid := 0, seq := h.seq, body := body } (grantBack cls (msgSlots n) s)

/-- Move the responses of class STREAM that are formed, from the oldest request on, to those that wait to leave (R569). -/
def flushResp (s : State) : State :=
  (s.sresp.takeWhile (·.2)).foldl (fun s e => queueMsg e.1 s) { s with sresp := s.sresp.dropWhile (·.2) }

/-- A response of class STREAM, formed or not. Its request's credit goes back once it is formed (R564). -/
def strmResp (op status sid seq : Nat) (formed : Bool) (s : State) : State :=
  let s := if formed then grantBack 2 1 s else s
  flushResp { s with sresp := s.sresp ++ [({ cls := 2, op := op, status := status, sid := sid, seq := seq, body := [] }, formed)] }

/-- A RESULT leaves for the host (R580, R680). -/
def resultOut (r : Res) (s : State) : State :=
  countDie 0x81 0 1 (queueMsg { cls := 4, op := r.op, status := r.status, sid := r.sid, seq := r.seq, body := r.body } s)

/-- Refuse a submit (R575): answered at once, its credits returned; an error completion, counted as one (R581, R589). -/
def submitRefuse (h : DHdr) (status slots : Nat) (s : State) : State :=
  resultOut (errorRes h.sid h.seq status) (countDie 0x82 0 1 (bump pgStrm 0x12C 31 0 1 (grantBack 3 slots s)))

/-- Answer a request that is no message of its class: a reserved OP, a LEN wrong for its OP, or a reserved field set (R574, R581). -/
def badMsg (cls op : Nat) (h : DHdr) (slots : Nat) (s : State) : State :=
  if cls = 2 then strmResp (128 + op % 128) stBADMSG h.sid h.seq true s
  else if cls = 3 then submitRefuse h stBADMSG slots s
  else queueMsg { cls := cls, op := 128 + op % 128, status := stBADMSG, sid := 0, seq := h.seq, body := [] } (grantBack cls slots s)

/-- Whether a class has a request with an OP (R566, R568, R570, R573, R574, R584). -/
def opKnown (cls op : Nat) : Bool :=
  decide (1 ≤ op ∧ op ≤ (if cls = 1 ∨ cls = 2 then 2 else if cls = 3 then 3 else 1))

-- Receiving (R558, R559, R563, R584) ------------------------------------------------------------------------------------------------------

/-- Bits in which two numbers differ, of n. -/
def bitsApart (n a b : Nat) : Nat := ((List.range n).filter (fun i => bit a i != bit b i)).length

/-- Whether the marks that arrive on the lanes show SYNC: on each, at most 8 bits apart from the pattern (R758). -/
def syncSeen (marks : List Nat) : Bool := !marks.isEmpty && marks.all (fun m => decide (bitsApart 240 m syncBits ≤ 8))

/-- SOF_MARK (R557, R558, R596, R758): the adapter's mark, as its 480 bits on each lane that carries it; `inTol` tells whether it comes 1.000 µs after the
mark before, within R557. The receiver is locked after two such marks that both show SYNC; in MARKS the oscillator is trimmed against them, to a
value that is free. -/
def execSofMark (inTol : Bool) (marks : List Nat) (s : State) : Host.Outcome State Fault Refusal :=
  if dzState s = 0 then .next s
  else
    let seen := syncSeen marks
    let lock := seen && inTol && s.dz.synced
    let s := wb pgDzt 0x104 13 lock (updDz (fun d => { d with synced := seen }) s)
    if lock ∧ rf pgClk 0x100 2 0 s = 2 then
      let (w, s) := takeFree s
      .next (wf pgClk 0x104 23 0 w s)
    else .next s

/-- Send an acknowledgement (1) or a NAK (2) in the next control word (R559). -/
def dzAck (kind : Nat) (s : State) : State := say .codeword [13, s.dz.seqIn, kind] s

/-- Apply a control word: acknowledged slots leave the replay buffer, a NAK resends the rest (R559). -/
def dzControl (ackseq kind : Nat) (s : State) : State :=
  let first := match s.dz.sent with
    | [] => s.dz.seqOut
    | e :: _ => e.lseq
  let n := (ackseq % 4096 + 4096 - first) % 4096
  let n := if (kind = 1 ∨ kind = 2) ∧ n ≤ s.dz.sent.length then n else 0
  let s := updDz (fun d => { d with sent := d.sent.drop n, resends := if n = 0 then d.resends else 0 }) s
  if kind = 2 then dzResend s else s

/-- Take the credits that a header returns to the device (R563). -/
def addCred (l : List Nat) (s : State) : State :=
  updDz (fun d => { d with cred := (List.range 8).foldl (fun m i => if i = 0 then m else SMap.upd 0 m i (· + nth 0 l i % 256)) d.cred }) s

/-- The first slot of a message (R564, R584): its credits; a message failing its CRC, of a reserved class or without credit is
discarded and counted, and one of a reserved OP is answered BADMSG (R574, R581). -/
def firstSlot (d : DzSlot) (s : State) : State :=
  if d.cls = 0 then if d.crcOk then addCred d.cred s else bump pgDzt 0x114 31 0 1 s
  else
    let s := updDz (fun x => { x with rxLeft := d.slots - 1 }) s
    let held := SMap.get 0 s.dz.host d.cls
    let spend (s : State) : State := updDz (fun x => { x with host := SMap.upd 0 x.host d.cls (· - d.slots) }) s
    if !d.crcOk then bump pgDzt 0x114 31 0 1 (if d.cls < 8 ∧ d.slots ≤ held then grantBack d.cls d.slots (spend s) else s)
    else if 7 < d.cls then bump pgDzt 0x120 31 0 1 (addCred d.cred s)
    else if held < d.slots then fire 94 (bump pgDzt 0x118 31 0 1 (addCred d.cred s))
    else
      let s := addCred d.cred (spend s)
      if opKnown d.cls d.op then s else badMsg d.cls d.op { sid := d.sid, seq := d.seq } d.slots s

/-- DZIT_SLOT (R559): the FEC's outcome, the control word, and the slot in sequence with an acknowledgement, or a NAK; the class
rows do what the message asks. -/
def execDzitSlot (d : DzSlot) (s : State) : Host.Outcome State Fault Refusal :=
  if !dzUp s then .next s
  else if d.uncorr then .next (dzAck 2 (bump pgDzt 0x10C 31 0 1 s))
  else
    let s := if d.corrected = 0 then s else bump pgDzt 0x108 31 0 1 s
    let s := dzControl d.ackseq d.ackkind s
    let want := s.dz.seqIn
    if d.lseq % 4096 = want then
      let s := countDie 0x89 0 1 (updDz (fun x => { x with seqIn := (want + 1) % 4096 }) s)
      let s := dzAck 1 s
      .next (if d.first then firstSlot d s else updDz (fun x => { x with rxLeft := x.rxLeft - 1 }) s)
    else if (want + 4096 - d.lseq % 4096) % 4096 ≤ 1024 then .next (dzAck 1 s)
    else .next (dzAck 2 s)

-- Training and lanes (R560–R562, R585, R586) ----------------------------------------------------------------------------------------------

/-- The credits that the device grants after training (R564). -/
def dzGrants : SMap Nat := [(1, 64), (2, 128), (3, 8192), (5, 1024), (7, 8)]

/-- DZIT_TRAIN_COMPLETE (R560–R562, R585): 4 or more good lanes of an adapter that the mode accepts bring the link up; fewer, or an adapter
of the other kind, leave it DOWN. Link sequence numbers start again at 0. -/
def execDzitTrainComplete (good : List Nat) (pathfinder : Bool) (s : State) : Host.Outcome State Fault Refusal :=
  let mode := rf pgDzt 0x100 2 1 s
  let compat := decide (mode = 2) || (decide (mode = 0) && pathfinder)
  let g := sumN (((List.range (if compat then 8 else 9)).filter (fun i => good.contains i)).map (fun i => 2 ^ i))
  let lanes := dzLanesOf g
  let n := ((List.range 9).filter (fun i => bit lanes i)).length
  if dzState s ≠ 1 then .next s
  else if n = 0 ∨ (mode = 1 ∧ pathfinder) ∨ (mode = 2 ∧ !pathfinder) then .next (dzDown s)
  else
    let s := wb pgDzt 0x104 14 compat (dzSet (if n = 8 then 2 else 3) lanes s)
    .next (updDz (fun d => { d with
      good := g, sent := [], seqOut := 0, seqIn := 0, cred := [], host := [], back := dzGrants }) s)

/-- DZT_CTRL.RETRAIN is written with 1 (R561, R587). -/
def dzRetrainWrite (s : State) : State := if rb pgDzt 0x100 0 s then dzTrain s else wb pgDzt 0x100 3 true s

/-- DZIT_RETRAIN (R561, R587): writing RETRAIN with 1 starts TRAIN on an enabled link. -/
def execDzitRetrain (q : Requester) (s : State) : Host.Outcome State Fault Refusal :=
  .next (guardWrite q pgDzt 0x100 dzRetrainWrite s)

/-- A DOWN link that is enabled and has a signal trains, every 10 ms (R561). -/
def dzRetry (signal : Bool) (s : State) : State :=
  if dzState s ≠ 0 ∨ !rb pgDzt 0x100 0 s ∨ !signal ∨ now s < s.dz.tryAt then s else dzTrain s

/-- A lane of the link is no longer good (R447, R560): with fewer than 4 good lanes the link trains; a failed active lane starts the
LANEMAP exchange, for a frame that is not stated and is free. -/
def dzLaneFail (lane : Nat) (s : State) : State :=
  if 8 < lane ∨ !bit s.dz.good lane ∨ !dzUp s then s
  else
    let good := putBit s.dz.good lane false
    let s := writeRec { kind := 0x0B } (updDz (fun d => { d with good := good }) s)
    if dzLanesOf good = 0 then dzTrain s
    else if !bit (rf pgDzt 0x104 12 4 s) lane then s
    else
      let (w, s) := takeFree s
      say .dzitFrame [w, dzLanesOf good] (updDz (fun d => { d with lanemap := some (dzLanesOf good, w) }) s)

/-- The lanes change at the frame that both ends agreed (R447, R560). -/
def dzLanemap (lanes fr : Nat) (s : State) : State :=
  let k := ((List.range 9).filter (fun i => bit lanes i)).length
  if (k ≠ 8 ∧ k ≠ 4) ∨ !dzUp s then s
  else
    let s := if s.dz.lanemap.isNone then say .dzitFrame [fr, lanes] s else s
    dzSet (if k = 8 then 2 else 3) lanes (updDz (fun d => { d with lanemap := none }) s)

end Sys2Proof.Machine
end

