-- ==== Sys2Proof/Machine/Link.lean ====
section
/-! DEFINITION. Ralpor links (R444–R455): codewords and retry, lanes, training, and the neighbour's identity. -/

namespace Sys2Proof.Machine

/-- The number by which the rows of R447, R449 and R452 name the Dzit link, to which R559–R561 apply them too. -/
def dzPort : Nat := 13

/-- Set a port's link state (R488). -/
def setLink (p st : Nat) (s : State) : State := wf (pgRlp p) 0x104 2 0 st s

/-- Set the lanes in service, with the width they give (R446, R488). -/
def setLanes (p lanes : Nat) (s : State) : State :=
  let k := ((List.range 18).filter (fun i => bit lanes i)).length
  wf (pgRlp p) 0x104 11 10 (if k = 16 then 2 else if k = 8 then 1 else 0) (wf (pgRlp p) 0x104 29 12 lanes s)

/-- Record the good lanes of a port (R446, R488). -/
def setGood (p good : Nat) (s : State) : State :=
  wf (pgRlp p) 0x104 9 5 ((List.range 18).filter (fun i => bit good i)).length (updPort p (fun x => { x with good := good }) s)

/-- The lanes that a set of good lanes puts in service: the lowest 16, or the lowest 8, or none (R446). -/
def lanesOf (good : Nat) : Nat :=
  let l := (List.range 18).filter (fun i => bit good i)
  let n := if 16 ≤ l.length then 16 else if 8 ≤ l.length then 8 else 0
  sumN ((l.take n).map (fun i => 2 ^ i))

/-- The link leaves UP or DEGRADED now: flits that wait count LINKWAIT from here (R455). -/
def markDown (p : Nat) (s : State) : State := if portUp p s then updPort p (fun x => { x with downAt := now s }) s else s

/-- Enter TRAIN (R452, R487); the replay buffer is kept (R449). -/
def startTrain (p : Nat) (s : State) : State :=
  let s := setLink p lsTrain (setLanes p 0 (markDown p s))
  wb (pgRlp p) 0x100 1 false (updPort p (fun x => { x with resends := 0, lanemap := none, xoff := 0 }) s)

/-- Enter DOWN (R452); the next try of TRAIN is 10 ms away. -/
def linkDrop (p : Nat) (s : State) : State :=
  let s := setGood p 0 (setLanes p 0 (setLink p lsDown (markDown p s)))
  updPort p (fun x => { x with tryAt := now s + 10 * msec, lanemap := none, xoff := 0 }) s

/-- Resend a port's unacknowledged flits (R448). -/
def resendFlits (p : Nat) (s : State) : State :=
  let x := portAt p s
  let n := x.replay.length
  if n = 0 then s
  else
    let s := setPort p { x with replay := x.replay.map (fun e => (e.1, now s)) } s
    let s := countDie 0x92 p n (bump (pgRlp p) 0x120 31 0 n s)
    x.replay.foldl (fun s e => flitOut p e.1 s) s

/-- Resend, or retrain after 8 resends without progress (R449). -/
def resendOrTrain (p : Nat) (s : State) : State :=
  if (portAt p s).replay.isEmpty then s
  else if 8 ≤ (portAt p s).resends then startTrain p s
  else resendFlits p (updPort p (fun x => { x with resends := x.resends + 1 }) s)

/-- Apply a control word: acknowledged flits leave the replay buffer, a NAK resends the rest, and XOFF holds VCs (R445, R448,
R450). -/
def applyControl (p : Nat) (cw : Codeword) (s : State) : State :=
  let x := portAt p s
  let first := match x.replay with
    | [] => x.seqOut
    | e :: _ => e.1.lseq
  let n := (cw.ackseq % 4096 + 4096 - first) % 4096
  let ack := decide (cw.ackkind = 1 ∨ cw.ackkind = 2)
  let n := if ack ∧ n ≤ x.replay.length then n else 0
  let s := setPort p { x with replay := x.replay.drop n, xoff := cw.xoff % 8, resends := if n = 0 then x.resends else 0 } s
  drainPort p (if cw.ackkind = 2 then resendOrTrain p s else s)

/-- Send an acknowledgement (1) or a NAK (2) in the next control word, with the port's XOFF bits (R445, R448, R450). -/
def sendAck (p kind : Nat) (s : State) : State := say .codeword [p, (portAt p s).seqIn, kind, xoffOut p s] s

/-- VC of a flit type; none where a type may take any or is reserved (R457). -/
def vcOk (type vc : Nat) : Bool :=
  if type = ftIdle then true
  else if type = ftData then decide (vc = 0 ∨ vc = 1)
  else if type = ftShdata ∨ type = ftMirror then decide (vc = 0)
  else decide (vc = 2)

/-- Whether a flit is discarded for what it is (R457, R540, R709): a reserved type, LINKCTL subtype or MIRROR SUB, a twin's flit on another
port, a type on a VC that is not its own, a roll-call message of no kind. -/
def flitForeign (p : Nat) (f : Flit) : Bool :=
  decide (9 < f.type) || !vcOk f.type f.vc || (decide (f.type = ftMirror ∨ f.type = ftHeart) && decide (p ≠ 4)) ||
    (decide (f.type = ftMirror) && decide (7 < leAt f.body 0 1)) ||
    (decide (f.type = ftLinkctl) && decide (leAt f.body 0 1 ≠ 1 ∧ leAt f.body 0 1 ≠ 2)) ||
    (decide (f.type = ftRollcall) && decide (leAt f.body 0 1 = 0 ∨ 3 < leAt f.body 0 1 ∨ leAt f.body 4 8 = 0))

/-- What becomes of an accepted flit at this hop: counted in RLP_FOREIGN, or in RLP_CRC where its body is read here
and fails the CRC (R457, R458). A DATA or RECALL flit goes on to DATA_FLIT or RECALL_FLIT, the others to their own rows. -/
def flitTaken (p : Nat) (f : Flit) (s : State) : State :=
  if flitForeign p f then bump (pgRlp p) 0x12C 31 0 1 s
  else if f.type ≠ ftIdle ∧ f.type ≠ ftData ∧ f.type ≠ ftRecall ∧ !f.crcOk then bump (pgRlp p) 0x124 31 0 1 s
  else s

/-- CODEWORD_RECEIVE (R444–R450): the FEC's outcome is counted, the control word applied, and the flit accepted in sequence, with an
acknowledgement, or answered with NAK; a duplicate is discarded and acknowledged again. -/
def execCodewordReceive (p : Nat) (cw : Codeword) (s : State) : Host.Outcome State Fault Refusal :=
  if linkState p s = lsDown ∨ linkState p s = lsTrain then .next s
  else if cw.uncorr then .next (sendAck p 2 (bump (pgRlp p) 0x11C 31 0 1 s))
  else
    let s := if cw.corrected = 0 then s else countDie 0x93 p 1 (bump (pgRlp p) 0x118 31 0 1 s)
    let s := applyControl p cw s
    let f := cw.flit
    let want := (portAt p s).seqIn
    if f.vc = 3 then .next (sendAck p 2 s)
    else if f.lseq % 4096 = want then
      let s := countDie 0x91 p 1 (updPort p (fun x => { x with seqIn := (want + 1) % 4096 }) s)
      .next (flitTaken p f (sendAck p 1 s))
    else if (want + 4096 - f.lseq % 4096) % 4096 ≤ 1024 then .next (sendAck p 1 s)
    else .next (sendAck p 2 s)

/-- REPLAY_TIMEOUT (R449, R602): the oldest unacknowledged flit has waited 4 µs. -/
def execReplayTimeout (p : Nat) (s : State) : Host.Outcome State Fault Refusal :=
  if p = dzPort then .next (match s.dz.sent with
    | [] => s
    | e :: _ => if !dzUp s ∨ now s < e.time + 4 * usec then s else dzResend s)
  else match (portAt p s).replay with
  | [] => .next s
  | e :: _ => .next (if linkState p s = lsDown ∨ linkState p s = lsTrain ∨ now s < e.2 + 4 * usec then s else resendOrTrain p s)

-- Lanes (R446, R447) --------------------------------------------------------------------------------------------------------

/-- Send a LANEMAP (R447, R457). -/
def sendLanemap (p lanes cwno : Nat) (s : State) : State :=
  sendFlit p (nearFlit ftLinkctl 2 (slice (leBytes 1 2 ++ leBytes 3 lanes ++ leBytes 4 cwno) 0 608) s) s

/-- Whether a lane fails (R447, R560): it has lost lock, or its corrected symbols in 1 ms exceed the threshold. -/
def laneBad (p : Nat) (syms : Option Nat) (s : State) : Bool := match syms with
  | none => true
  | some n => decide ((if p = dzPort then 1000 else rf (pgRlp p) 0x114 15 0 s) < n)

/-- LANE_FAIL (R446, R447): a lane has lost lock, or had a number of corrected symbols within 1 ms; where it fails it is no longer good. With fewer than 8 good lanes the port retrains; a failed active lane starts the
LANEMAP exchange. The codeword proposed is not stated and is free. -/
def execLaneFail (p lane : Nat) (syms : Option Nat) (s : State) : Host.Outcome State Fault Refusal :=
  let good := (portAt p s).good
  if !laneBad p syms s then .next s
  else if p = dzPort then .next (dzLaneFail lane s)
  else if 17 < lane ∨ !bit good lane ∨ linkState p s < lsIdent then .next s
  else
    let good := putBit good lane false
    let s := writeRec { kind := 0x0B } (setGood p good s)
    if lanesOf good = 0 then .next (startTrain p s)
    else if !bit (rf (pgRlp p) 0x104 29 12 s) lane then .next s
    else
      let (w, s) := takeFree s
      .next (sendLanemap p (lanesOf good) w (updPort p (fun x => { x with lanemap := some (lanesOf good, w) }) s))

/-- LANEMAP (R447): the far end's LANEMAP completes the exchange, and the lanes change at the codeword it names; an exchange that
the far end starts is answered with the same map. -/
def execLanemap (p lanes cwno : Nat) (s : State) : Host.Outcome State Fault Refusal :=
  let k := ((List.range 18).filter (fun i => bit lanes i)).length
  if p = dzPort then .next (dzLanemap lanes cwno s)
  else if (k ≠ 16 ∧ k ≠ 8) ∨ linkState p s < lsIdent then .next s
  else
    let s := if (portAt p s).lanemap.isNone then sendLanemap p lanes cwno s else s
    let s := setLanes p lanes (updPort p (fun x => { x with lanemap := none }) s)
    .next (if portUp p s then setLink p (if k = 16 then lsUp else lsDegraded) s else s)

-- The neighbour (R452–R455) --------------------------------------------------------------------------------------------------

/-- Send the port's IDENT: the claimed coordinate, port code, axis lengths, identity, and whether the coordinate is valid (R457, R707). -/
def sendIdent (p : Nat) (s : State) : State :=
  sendFlit p (nearFlit ftLinkctl 2 (slice (leBytes 1 1 ++ leBytes 2 (myCoord s) ++ leBytes 1 p ++ leBytes 1 (rf pgTop 0x100 14 10 s) ++
    leBytes 1 (rf pgTop 0x100 19 15 s) ++ leBytes 8 (myIdent s) ++ leBytes 1 (b2n (rb pgTop 0x100 31 s))) 0 608) s) s

/-- TRAIN_COMPLETE (R446, R452): with 8 or more good lanes the port goes to IDENT and sends its own; with fewer, training has timed
out. -/
def execTrainComplete (p : Nat) (good : List Nat) (s : State) : Host.Outcome State Fault Refusal :=
  if linkState p s ≠ lsTrain then .next s
  else
    let g := sumN (((List.range 18).filter (fun i => good.contains i)).map (fun i => 2 ^ i))
    if lanesOf g = 0 then .next (linkDrop p s)
    else .next (sendIdent p (setLink p lsIdent (setLanes p (lanesOf g) (setGood p g s))))

/-- TRAIN_RETRY (R452): a DOWN port that is enabled and has a signal trains, every 10 ms. -/
def execTrainRetry (p : Nat) (signal : Bool) (s : State) : Host.Outcome State Fault Refusal :=
  if p = dzPort then .next (dzRetry signal s)
  else if linkState p s ≠ lsDown ∨ !rb (pgRlp p) 0x100 0 s ∨ rf pgClk 0x100 2 0 s = 3 ∨ !signal ∨ now s < (portAt p s).tryAt then .next s
  else .next (startTrain p s)

/-- SIGNAL_LOSS (R452). -/
def execSignalLoss (p : Nat) (s : State) : Host.Outcome State Fault Refusal :=
  if p = dzPort then .next (if dzState s = 0 then s else writeRec { kind := 0x0B } (dzDown s))
  else if linkState p s = lsDown then .next s
  else .next (writeRec { kind := 0x0B } (linkDrop p s))

/-- RLP_CTRL.RETRAIN is written with 1 (R452, R487, R599): TRAIN starts on an enabled port, unless the reference is FREE. -/
def retrainWrite (p : Nat) (s : State) : State :=
  if rb (pgRlp p) 0x100 0 s && decide (rf pgClk 0x100 2 0 s ≠ 3) then startTrain p s else wb (pgRlp p) 0x100 1 true s

/-- RETRAIN (R452, R487). -/
def execRetrain (q : Requester) (p : Nat) (s : State) : Host.Outcome State Fault Refusal := .next (guardWrite q (pgRlp p) 0x100 (retrainWrite p) s)

/-- The coordinate that R453 expects at a port. -/
def wantCoord (p : Nat) (s : State) : Nat :=
  let (x, y, lx, ly) := (myX s, myY s, axisX s, axisY s)
  match p with
  | 0 => (x + 1) % lx + 32 * y
  | 1 => (x + lx - 1) % lx + 32 * y
  | 2 => x + 32 * ((y + 1) % ly)
  | _ => x + 32 * ((y + ly - 1) % ly)

/-- Whether a neighbour that reports a coordinate and an identity is expected (R453). -/
def expected (p coord id : Nat) (s : State) : Bool :=
  !rb pgTop 0x100 31 s || (if p = 4 then decide (id = twnPartner s) else decide (coord % 1024 = wantCoord p s))

/-- A roll-call flit to a neighbour (R709). -/
def rollFlit (body : List Byte) (s : State) : Flit := nearFlit ftRollcall 2 (slice body 0 608) s

/-- Forward the CALL that the device follows on a port (R709, R710). -/
def sendCall (p : Nat) (s : State) : State :=
  let r := s.roll
  if r.trail = 0 ∨ r.called.contains p ∨ rf pgTop 0x304 28 24 s = p then s
  else
    sendFlit p (rollFlit (leBytes 4 1 ++ leBytes 8 r.trail ++ leBytes 1 (r.hops + 1)) s) { s with roll := { r with called := p :: r.called } }

/-- A port returns to UP or DEGRADED (R446, R454, R710): the same neighbour takes up the replay buffer, another loses it; the twin port
tells the pair. -/
def linkUp (p coord port id : Nat) (s : State) : State :=
  let pg := pgRlp p
  let had := rb pg 0x108 31 s
  let old := rd64 pg 0x10C s
  let s := setLink p (if rf pg 0x104 11 10 s = 2 then lsUp else lsDegraded) s
  let s := wr pg 0x108 (word (2 ^ 31 + port % 16 * 2 ^ 10 + coord % 1024)) (wr64 pg 0x10C id s)
  let s := updPort p (fun x => { x with resends := 0 }) s
  let s :=
    if had ∧ old ≠ id then
      let n := (portAt p s).replay.length
      say .mgmt [0, 78, p, id] (fire 78 (bump pg 0x128 31 0 n (updPort p (fun x => { x with replay := [] }) s)))
    else resendFlits p s
  let s := sendCall p (drainPort p s)
  if p = 4 then twinSeen id s else s

/-- An IDENT against what is expected (R452, R453): passing brings the link up; any other neighbour is a MISMATCH. -/
def identCheck (p coord port id : Nat) (s : State) : State :=
  if !expected p coord id s then setLink p lsMismatch (markDown p s)
  else if portUp p s then
    wr (pgRlp p) 0x108 (word (2 ^ 31 + port % 16 * 2 ^ 10 + coord % 1024)) (wr64 (pgRlp p) 0x10C id s)
  else linkUp p coord port id s

/-- IDENT (R452–R454, R710). -/
def execIdent (p coord port _lxm1 _lym1 id : Nat) (_valid : Bool) (s : State) : Host.Outcome State Fault Refusal :=
  if linkState p s < lsIdent then .next s
  else .next (identCheck p coord port id (updPort p (fun x => { x with heard := some (coord, port, id) }) s))

/-- Weigh a port's neighbour again after TOP_COORD or TWN_PARTNER has changed (R452, R712). -/
def recheckNbr (p : Nat) (s : State) : State :=
  match (portAt p s).heard with
  | none => s
  | some (coord, port, id) => if linkState p s < lsUp then s else identCheck p coord port id s

/-- LINKWAIT_EXPIRY (R455): flits that have waited LINKWAIT at a port that is not up are lost. -/
def execLinkwaitExpiry (p : Nat) (s : State) : Host.Outcome State Fault Refusal :=
  let x := portAt p s
  if portUp p s ∨ x.wait.isEmpty ∨ now s < x.downAt + msec * rf (pgRlp p) 0x100 23 16 s then .next s
  else .next (fire 79 (bump (pgRlp p) 0x128 31 0 x.wait.length (setPort p { x with wait := [] } s)))

end Sys2Proof.Machine
end

