-- ==== Sys2Proof/Machine/Path.lean ====
section
/-! DEFINITION. SDT paths as a sender keeps them (R475–R479) and the peer table (R493). -/

namespace Sys2Proof.Machine

/-- A path of an ETH port to a peer. -/
def pathAt (e peer : Nat) (s : State) : Path := SMap.get Path.empty s.paths (e * 4096 + peer)

/-- Store a path. -/
def setPath (e peer : Nat) (x : Path) (s : State) : State := { s with paths := SMap.set Path.empty s.paths (e * 4096 + peer) x }

/-- Change a path. -/
def updPath (e peer : Nat) (f : Path → Path) (s : State) : State := setPath e peer (f (pathAt e peer s)) s

/-- A word of a peer table entry, and the entry's ETHPORT, VALID and STORAGE (R493). -/
def peerWord (peer i : Nat) (s : State) : Word := SMap.get 0 s.peers (peer * 8 + i)
def peerPort (peer : Nat) (s : State) : Nat := getF (peerWord peer 4 s) 18 16
def peerValid (peer : Nat) (s : State) : Bool := getB (peerWord peer 4 s) 24
def peerStorage (peer : Nat) (s : State) : Bool := getB (peerWord peer 4 s) 25

/-- Whether an ETH port sends and receives SDT: it is enabled, and has an IPv6 address (R473). -/
def ethOn (e : Nat) (s : State) : Bool :=
  rb (pgEth e) 0x100 0 s && (List.range 4).any (fun i => rd (pgEth e) (0x118 + 4 * i) s != 0) && !inService s

/-- The header of an SDT packet, in network byte order (R475). -/
def sdtHeader (kind nflit code peer psn ack sack : Nat) : List Byte :=
  [1, BitVec.ofNat 8 kind, BitVec.ofNat 8 nflit, BitVec.ofNat 8 code] ++ beBytes 4 peer ++ beBytes 4 psn ++ beBytes 4 ack ++ beBytes 8 sack

/-- The ones' complement sum of a UDP checksum over bytes taken in pairs. -/
def sum16 (l : List Byte) : Nat :=
  let n := sumN ((chunks 2 l).map (fun p => leAt p 0 1 * 256 + leAt p 1 1))
  let fold (n : Nat) : Nat := n % 65536 + n / 65536
  fold (fold (fold n))

/-- A port's IPv6 address and a peer's, first octet first (R490, R493). -/
def ethAddr (e : Nat) (s : State) : List Byte := (List.range 4).flatMap (fun i => beBytes 4 (rd (pgEth e) (0x118 + 4 * i) s).toNat)
def peerAddr (peer : Nat) (s : State) : List Byte := (List.range 4).flatMap (fun i => leBytes 4 (peerWord peer i s).toNat)

/-- The Ethernet frame of a UDP datagram to a peer (R473, R475): to ETH_GWMAC, IPv6 with traffic class ETH_CTRL.TCLASS and hop limit 64, from
ETH_SDT.UDPPORT to the peer's port. The flow label, which no rule gives, is 0 (log 111). -/
def ethFrame (e peer : Nat) (data : List Byte) (s : State) : List Byte :=
  let len := 8 + data.length
  let src := ethAddr e s
  let dst := peerAddr peer s
  let ports := beBytes 2 (rf (pgEth e) 0x128 15 0 s) ++ slice (leBytes 4 (peerWord peer 4 s).toNat) 0 2
  let sum := 65535 - sum16 (src ++ dst ++ beBytes 4 len ++ beBytes 4 17 ++ ports ++ beBytes 2 len ++ beBytes 2 0 ++ data)
  let mac (off : Nat) : List Byte := beBytes 2 (rf (pgEth e) (off + 4) 15 0 s) ++ beBytes 4 (rd (pgEth e) off s).toNat
  mac 0x110 ++ mac 0x108 ++ beBytes 2 0x86DD ++ beBytes 4 (6 * 2 ^ 28 + rf (pgEth e) 0x100 15 8 s * 2 ^ 20) ++ beBytes 2 len ++ [17, 64] ++
    src ++ dst ++ ports ++ beBytes 2 len ++ beBytes 2 (if sum = 0 then 65535 else sum) ++ data

/-- Send a packet: port, peer, KIND, NFLIT, CODE, PSN, ACKPSN, SACK, and its frame (R473, R475); its flits are shown under the port's code too. -/
def sdtSend (e peer kind code psn ack sack : Nat) (flits : List Flit) (s : State) : State :=
  let data := sdtHeader kind flits.length code peer psn ack sack ++ flits.flatMap flitWire
  flits.foldl (fun s f => flitOut (5 + e) f s) (sayBytes .sdt [e, peer, kind, flits.length, code, psn, ack, sack] (ethFrame e peer data s) s)

/-- Pacing (R479): RATE of a peer's entry, 0.1 GB/s, is the flit bytes that may leave in a period of rack time. -/
def peerRate (peer : Nat) (s : State) : Nat := (peerWord peer 5 s).toNat

/-- Whether a path's pace lets a packet leave in this period. -/
def paceOpen (e peer : Nat) (s : State) : Bool := decide (0 < peerRate peer s ∧ (pathAt e peer s).pace / 65536 ≤ now s)

/-- The path's pace after a packet of n flits: the next may leave once these bytes have had their time, kept in 1/65,536 of a period. -/
def paceAfter (e peer n : Nat) (s : State) : Nat :=
  max (pathAt e peer s).pace (now s * 65536) + (640 * n * 65536 + peerRate peer s - 1) / peerRate peer s

/-- Send one DATA packet of up to 13 waiting flits (R475, R477). -/
def sdtPacket (e peer : Nat) (s : State) : State :=
  let x := pathAt e peer s
  let fl := x.wait.take 13
  let pkt : SdtPkt := { psn := x.psnOut, flits := fl, tries := 0, time := now s }
  let s := setPath e peer { x with
    wait := x.wait.drop 13, sent := x.sent ++ [pkt], psnOut := (x.psnOut + 1) % 2 ^ 32, pace := paceAfter e peer fl.length s } s
  sdtSend e peer 0 0 x.psnOut 0 0 fl (countDie 0x98 e 1 s)

/-- Send waiting flits while fewer than 256 packets are unacknowledged and the path's pace allows (R477, R479); `fuel` bounds the packets. -/
def sdtPump : Nat → Nat → Nat → State → State
  | 0, _, _, s => s
  | fuel + 1, e, peer, s =>
    let x := pathAt e peer s
    if x.wait.isEmpty ∨ 256 ≤ x.sent.length ∨ !x.opened ∨ !ethOn e s ∨ !paceOpen e peer s then s else sdtPump fuel e peer (sdtPacket e peer s)

/-- Send OPEN on a path that is not open and has asked for none (R476). -/
def sdtAsk (e peer : Nat) (s : State) : State :=
  let x := pathAt e peer s
  if x.opened ∨ x.asked ∨ !ethOn e s then s else sdtSend e peer 2 0 0 0 0 [] (setPath e peer { x with asked := true } s)

/-- Let a path send what it can. -/
def sdtRun (e peer : Nat) (s : State) : State :=
  if (pathAt e peer s).wait.isEmpty then s else sdtPump 256 e peer (sdtAsk e peer s)

/-- The paths send what their pace allows as time passes (R479). -/
def sdtTick (s : State) : State :=
  (s.paths.filter (fun e => !e.2.wait.isEmpty && e.2.opened)).foldl (fun s e => sdtRun (e.1 / 4096) (e.1 % 4096) s) s

/-- Queue a flit on a path (R476); the highest step that each slot's DATA flits carry is kept (R509). -/
def sdtQueue (e peer slot : Nat) (f : Flit) (s : State) : State :=
  sdtRun e peer (updPath e peer (fun x => { x with
    wait := x.wait ++ [f], steps := if f.type = ftData then SMap.upd 0 x.steps slot (max (f.step + 1)) else x.steps }) s)

/-- A path fails, or its entry is written while it is open (R478, R493): its unacknowledged flits are lost and counted. -/
def sdtFail (e peer : Nat) (s : State) : State :=
  let x := pathAt e peer s
  let n := sumN (x.sent.map (fun k => k.flits.length)) + x.wait.length
  fire 80 (bump (pgEth e) 0x134 31 0 n (setPath e peer { Path.empty with steps := x.steps, pace := x.pace } s))

end Sys2Proof.Machine
end

