-- ==== Sys2Proof/Machine/Torus.lean ====
section
/-! DEFINITION. Flits of the torus: routes (R460–R465), delivery at an ingress (R458, R459, R471), link actions and egress
(R466–R470, R509), and recalls between devices (R510–R512). -/

namespace Sys2Proof.Machine

-- Routes (R461, R462) ------------------------------------------------------------------------------------------------------

/-- Whether a Ralpor port's link joins coordinates L − 1 and 0 of its axis. -/
def wraps (p : Nat) (s : State) : Bool :=
  match p with
  | 0 => decide (myX s + 1 = axisX s)
  | 1 => decide (myX s = 0)
  | 2 => decide (myY s + 1 = axisY s)
  | 3 => decide (myY s = 0)
  | _ => false

/-- Whether the positive direction leads from v to t on an axis of length l (R461). -/
def goesUp (v t l : Nat) (wrap : Bool) : Bool :=
  if wrap then let d := (t + l - v) % l; decide (d ≤ l - d) else decide (v < t)

/-- The port by which a flit leaves for a destination coordinate, every X hop before any Y hop (R461). -/
def hopPort (dst : Nat) (rect : Nat × Nat × Nat × Nat) (s : State) : Nat :=
  let (tx, ty) := (dst % 32, dst / 32 % 32)
  if tx ≠ myX s then (if goesUp (myX s) tx (axisX s) (decide (rect.2.2.1 = axisX s)) then 0 else 1)
  else if goesUp (myY s) ty (axisY s) (decide (rect.2.2.2 = axisY s)) then 2 else 3

/-- VC of a DATA flit on a port: DATA1 from the wrapping link on, back to DATA0 on the first Y hop (R461). `inp` is the
port it came by, 5 at its source. -/
def hopVc (out inp vc : Nat) (s : State) : Nat :=
  if wraps out s then 1 else if (out < 2 ∧ inp < 2) ∨ (2 ≤ out ∧ 2 ≤ inp ∧ inp < 4) then vc else 0

-- Delivery (R458, R459, R471, R510) ---------------------------------------------------------------------------------------------

/-- Carrier of a body format, its most blocks in a flit, and bytes of a block (R324, R459). -/
def bodyFmt (fmt : Nat) : BlkFmt × Nat × Nat :=
  match fmt with
  | 0 => (.a8, 17, 34)
  | 1 => (.a4, 33, 18)
  | 2 => (.zb, 255, 2)
  | _ => (.p16b, 9, 66)

/-- The blocks that a DATA flit's body holds, as it holds them (R459). -/
def flitRaw (f : Flit) : List Blk :=
  let (fmt, most, size) := bodyFmt f.fmt
  (List.range (min f.nblk most)).map (fun i => blkFrom fmt (slice f.body (size * i) size))

/-- The blocks of a DATA flit, with the identity and cause that it carries (R122, R456, R459). -/
def flitBlks (f : Flit) : List Blk :=
  (flitRaw f).map (fun b => { takeBlk b with cause := f.cause, pt := f.pt, sid := f.sid, bslot := f.slot })

/-- What a DATA flit shows its ingress, as the blocks' consumer: headers that are inconsistent (R122), and a reserved cause, which counts as a parity
event (R79, log 107). -/
def flitNotes (p : Page) (f : Flit) (s : State) : State :=
  let s := if f.fmt < 4 then noteHdr p (flitRaw f) s else s
  if 9 ≤ f.cause then recordErr p errPARITY s else s

/-- Note a delivery in an ingress's arrival log of 64 steps for each source (R510). -/
def logArrival (p who pitch : Nat) (f : Flit) (failed : Bool) (s : State) : State :=
  let x := portAt p s
  let here (e : ArrLog) : Bool := decide (e.src = who ∧ e.step = f.step)
  if x.log.any here then
    setPort p { x with log := x.log.map (fun e => if here e then
      { e with bslots := if e.bslots.contains f.slot then e.bslots else e.bslots ++ [f.slot], failed := e.failed || failed } else e) } s
  else
    let floor := match slotOfPitch pitch s with
      | none => 0
      | some n => (slotAt n s).floor
    let e : ArrLog := { src := who, step := f.step, pitch := pitch, floor := floor, bslots := [f.slot], failed := failed, taint := false }
    let mine := x.log.filter (fun e => e.src = who)
    let log := (match mine with
      | o :: _ => if 64 ≤ mine.length then x.log.erase o else x.log
      | [] => x.log) ++ [e]
    setPort p { x with log := log, acts := x.acts.filter (fun a => log.any (fun e => e.src = a.src ∧ e.step = a.step)) } s

/-- Inject one DATA message from a port's attachment cluster, with SRC 0x3F and parity computed anew (R458, R471): its number. A message of an ingress
is kept with the port as its entry and a step beyond every image's. -/
def ingressMsg (p : Nat) (a : InAct) (sub : Nat) (blks : List Blk) (s : State) : Nat × State :=
  let c := portCluster p
  let t : Tag := { tagTo c srcNone a.dcl a.kind sub 0 s with pitch := a.pitch }
  let (id, s) := openMsg c (256 + p) a.kind (2 ^ 50 + a.step) [a.dcl] blks s
  (id, emit { kind := .portage, args := [c, id, 0, a.kind, sub, 0, a.pitch, t.bank, 256 + p, a.dcl, srcNone], blks := blks, bytes := wire 64 t blks }
    (inject c (max 1 (sumN (blks.map beatsOf))) s))

/-- Inject groups of blocks in turn; SUB rises by their lines for Pantry and Stove (R471). -/
def ingressGroups (p : Nat) : Nat → List (List Blk) → InAct → State → InAct × State
  | _, [], a, s => (a, s)
  | sub, g :: gs, a, s =>
    let (id, s) := ingressMsg p a sub g s
    ingressGroups p (if a.kind = 0 ∨ a.kind = 3 then sub + runLines g else sub) gs { a with ids := a.ids ++ [id] } s

/-- Write a flit's blocks by KIND (R471): REDUCE and UNIT take whole groups of four, and the rest waits for the action's next flit. -/
def ingressBlks (p sub : Nat) (blks : List Blk) (a : InAct) (s : State) : InAct × State :=
  if a.kind = 0 ∨ a.kind = 3 then ingressGroups p sub (chunks 4 blks) a s
  else
    let l := a.got ++ blks
    let n := l.length / 4 * 4
    ingressGroups p sub (chunks 4 (l.take n)) { a with got := l.drop n } s

/-- The action that a flit belongs to: the open one of its source, step and target, or one that comes again, or a new one; its place
among the port's actions. -/
def openAct (p who pitch : Nat) (f : Flit) (s : State) : InAct × Nat :=
  let l := (portAt p s).acts
  let key (a : InAct) : Bool := decide (a.src = who ∧ a.step = f.step ∧ a.dcl = f.dcl ∧ a.kind = f.kind ∧ a.pitch = pitch)
  let new : InAct := { src := who, step := f.step, spid := f.spid, dcl := f.dcl, sub := f.sub, kind := f.kind, tokc := 0, pitch := pitch,
                       ids := [], got := [], last := false, sent := false, redo := false }
  match l.findIdx? (fun a => key a && !a.last) with
  | some i => (nth new l i, i)
  | none => match l.findIdx? (fun a => key a && a.redo && a.sub == f.sub) with
    | some i => ({ nth new l i with ids := [], got := [], last := false, redo := false }, i)
    | none => (new, l.length)

/-- Deliver a DATA flit's blocks to a local pitch (R471, R510, R511). -/
def deliverFlit (p who pitch : Nat) (f : Flit) (blks : List Blk) (s : State) : State :=
  let x := portAt p s
  let failed := blks.any (fun b => causeFails b.cause)
  if x.log.any (fun e => decide (e.src = who ∧ e.step = f.step) && e.taint) then s
  else if failed && x.drops.any (fun d => decide (d.1 = who ∧ d.2.1 ≤ f.step ∧ now s ≤ d.2.2)) then s
  else
    let s := logArrival p who pitch f failed s
    let (a, i) := openAct p who pitch f s
    let (a, s) := ingressBlks p f.sub blks a s
    let a := if f.last then { a with last := true, tokc := f.tokc } else a
    updPort p (fun x => { x with acts := if i < x.acts.length then setNth x.acts i a else x.acts ++ [a] }) s

/-- A flit that is dropped for its system pitch or its format (R459, R464). -/
def foreignFlit (p : Nat) (s : State) : State := bump (pgRlp p) 0x12C 31 0 1 s

/-- Deliver a DATA flit that names this device (R458, R464, R471): one that fails its CRC arrives with its blocks failed. -/
def dataHere (p n : Nat) (f : Flit) (s : State) : State :=
  if !rb pgTop (0x140 + 8 * n) 12 s ∨ 3 < f.fmt then foreignFlit p s
  else
    let pitch := rf pgTop (0x140 + 8 * n) 11 8 s
    let s := flitNotes (pgRlp p) f s
    if f.crcOk then deliverFlit p f.src pitch f (flitBlks f) s
    else
      let (w, s) := freeCause (bump (pgRlp p) 0x124 31 0 1 s)
      deliverFlit p f.src pitch f ((flitBlks f).map (fun b => { b with cause := w })) s

/-- Whether a flit's system pitch is known here, with this device and DST inside its rectangle (R464): the table entry. -/
def flitPitch (f : Flit) (s : State) : Option Nat :=
  match spaOf f.spid s with
  | none => none
  | some n =>
    let r := spaRect n s
    if inRect (myX s) (myY s) r s && decide (f.dst < 1024) && inRect (f.dst % 32) (f.dst / 32) r s then some n else none

/-- DATA_FLIT (R461, R464): a DATA flit is delivered here, forwarded over the Ridgeline, or dropped. -/
def execDataFlit (p : Nat) (f : Flit) (s : State) : Host.Outcome State Fault Refusal :=
  if !portUp p s then .next s
  else match flitPitch f s with
    | none => .next (foreignFlit p s)
    | some n =>
      if f.dst = myCoord s then .next (dataHere p n f s)
      else
        let out := hopPort f.dst (spaRect n s) s
        .next (passFlit p f.vc out { f with vc := hopVc out p f.vc s } s)

/-- INGRESS_TOKEN (R471): the token of an arrived action leaves once every message of it is resolved, and once only (R511). -/
def execIngressToken (p src step : Nat) (s : State) : Host.Outcome State Fault Refusal :=
  let x := portAt p s
  let c := portCluster p
  let waiting (a : InAct) : Bool := a.ids.any (fun i => (cluAt c s).sent.any (fun m => m.id = i))
  match x.acts.findIdx? (fun a => decide (a.src = src ∧ a.step = step) && a.last && !a.sent && bit a.tokc 7 && !waiting a) with
  | none => .next s
  | some i => match x.acts[i]? with
    | none => .next s
    | some a =>
      .next (sendTokenTo c a.dcl (a.tokc % 8) a.pitch (2 ^ 50 + step) (setPort p { x with acts := setNth x.acts i { a with sent := true } } s))

-- Recalls (R465, R509–R512) ----------------------------------------------------------------------------------------------------------

/-- Steps that the clusters of a slot have begun: one more than the highest (R511). -/
def begun (x : Slot) (s : State) : Nat := ((slotClusters x).map (fun c => (cluAt c s).next)).foldl max 0

/-- Whether some cluster's ring has overwritten a step from c on (R232, R511), whatever software has cleared of CLU_RINGSTAT. -/
def ringLost (x : Slot) (c : Nat) (s : State) : Bool :=
  (slotClusters x).any (fun k => (cluAt k s).lost.any (fun j => decide (c ≤ j)))

/-- Taint the tokens of a slot's batches in flight in the given batch slots (R511, R512). -/
def taintSlots (n origin j : Nat) (bslots : List Nat) (s : State) : State :=
  let x := slotAt n s
  let hits := (x.exiting.map (·.2) ++ x.batches).flatMap (fun b =>
    ((b.tokens.map (·.1)).filter (fun t => bslots.contains t)).map (fun t => (b.no, t)))
  let new := hits.filter (fun h => !x.taints.contains h)
  let s := setSlot n { x with taints := x.taints ++ new } s
  new.foldl (fun s h => countDie 0xA4 0 1 (bump pgDie 0x248 31 0 1
    (writeRec { kind := 6, pitch := x.pitch, step := j, coord := origin, bslot := h.2 } s))) s

/-- Act on a source's recall of step j in one local pitch, from the log entries of it (R511). -/
def recallPitch (ports : List Nat) (who origin j pitch : Nat) (ents : List ArrLog) (s : State) : State :=
  match slotOfPitch pitch s with
  | none => s
  | some n =>
    let x := slotAt n s
    let c := match ents with
      | [] => 0
      | e :: es => es.foldl (fun a e => min a e.floor) e.floor
    let mine (a b : Nat) : Bool := decide (a = who ∧ j ≤ b)
    if begun x s ≤ c + x.window ∧ !ringLost x c s then
      rollback n c true (ports.foldl (fun s p => updPort p (fun y => { y with
        acts := y.acts.map (fun a => if mine a.src a.step && a.pitch == pitch then { a with redo := true } else a) }) s) s)
    else
      taintSlots n origin j (ents.flatMap (·.bslots)) (ports.foldl (fun s p => updPort p (fun y => { y with
        log := y.log.map (fun e => if mine e.src e.step && e.pitch == pitch then { e with taint := true } else e) }) s) s)

/-- Act on a recall of step j by a source that some ports log (R511): nothing to roll back discards its failed flits for 2 ms. -/
def recallAct (ports : List Nat) (who origin j : Nat) (s : State) : State :=
  let ents := (ports.flatMap (fun p => (portAt p s).log)).filter (fun e => decide (e.src = who ∧ j ≤ e.step) && !e.taint)
  if ents.isEmpty then
    ports.foldl (fun s p => updPort p (fun y => { y with
      drops := (who, j, now s + 2 * msec) :: y.drops.filter (fun d => decide (now s ≤ d.2.2 ∧ d.1 ≠ who)) }) s) s
  else
    let s := writeRec { kind := 5, step := j, coord := origin } (countDie 0xA3 0 1 (bump pgDie 0x244 31 0 1 s))
    (ents.map (·.pitch)).eraseDups.foldl (fun s k => recallPitch ports who origin j k (ents.filter (fun e => e.pitch = k)) s) s

/-- Ports whose neighbour lies in a rectangle of devices (R465). -/
def floodPorts (rect : Nat × Nat × Nat × Nat) (s : State) : List Nat :=
  [0, 1, 2, 3].filter (fun p => let c := wantCoord p s; inRect (c % 32) (c / 32) rect s)

/-- Note a recall as forwarded now; older than 1 ms is forgotten (R465). -/
def noteRecall (origin j : Nat) (s : State) : State :=
  { s with recalls := (origin, j, now s) :: s.recalls.filter (fun r => decide (now s ≤ r.2.2 + msec)) }

/-- RECALL_FLIT (R464, R465, R511): forwarded once on every port whose neighbour lies in the rectangle, and acted on. -/
def execRecallFlit (p : Nat) (f : Flit) (s : State) : Host.Outcome State Fault Refusal :=
  if !portUp p s then .next s
  else match flitPitch f s with
    | none => .next (foreignFlit p s)
    | some n =>
      if !f.crcOk then .next (bump (pgRlp p) 0x124 31 0 1 s)
      else
        let j := leAt f.body 0 6
        let origin := leAt f.body 6 2
        if s.recalls.any (fun r => decide (r.1 = origin ∧ r.2.1 = j ∧ now s ≤ r.2.2 + msec)) then .next s
        else
          let s := noteRecall origin j s
          let s := (floodPorts (spaRect n s) s).foldl (fun s k => passFlit p f.vc k f s) s
          .next (if origin = myCoord s then s else recallAct [0, 1, 2, 3, 4] origin origin j s)

-- Link actions (R466–R470) -----------------------------------------------------------------------------------------------------------------

/-- A schedule entry (R467). -/
structure Sched where
  srccl  : Nat
  nblk   : Nat
  narrow : Nat
  dst    : Nat
  dcl    : Nat
  sub    : Nat
  kind   : Nat
  tokc   : Nat
  edge   : Nat
  dspid  : Nat
deriving DecidableEq, Repr

/-- Entry d of a port's schedule in an image slot. -/
def schedOf (x : Slot) (p d : Nat) : Sched :=
  let b := slice (SMap.get [] x.scheds p) (16 * d) 16
  { srccl := leAt b 0 2 % 16384, nblk := leAt b 2 1, narrow := leAt b 3 1, dst := leAt b 4 2, dcl := leAt b 6 2 % 16384,
    sub := leAt b 8 2 % 1024, kind := leAt b 8 2 / 1024 % 16, tokc := leAt b 10 1, edge := leAt b 11 1, dspid := leAt b 12 1 }

/-- Block b of an action as it leaves: narrowed for the flit (R467, R470). A block bound for an edge format is converted as it is. -/
def narrowOut (p step : Nat) (e : Sched) (b : Nat) (x : Blk) : Blk :=
  let sr (on : Bool) (i : Nat) : Option Nat := if on then some (draw16 6 p x.sid step (32 * b + i)) else none
  if e.edge ≠ 0 then x
  else match x.fmt with
    | .p24 => narrowP16 x (sr (e.narrow == 3))
    | .a8 =>
      if isZero x ∨ (e.narrow ≠ 1 ∧ e.narrow ≠ 2) then x
      else { toA true none ((List.range 32).map (manAt x)) ((x.exp : Int) - 127) (sr (e.narrow == 2)) with
             cause := x.cause, pt := x.pt, sid := x.sid, bslot := x.bslot }
    | _ => x

/-- FMT of a block in a flit, and the most blocks of a format (R459). -/
def outFmt (e : Sched) (b : Blk) : Nat :=
  if e.edge ≠ 0 then 0x0F + e.edge else match fmtCode b with
    | 0 => 0 | 1 => 1 | 2 => 2 | _ => 3
def outMost (fmt : Nat) : Nat := if fmt < 4 then (bodyFmt fmt).2.1 else if fmt < 0x13 then 19 else if fmt = 0x13 then 9 else 4

/-- Blocks into the flits that carry them: one format and one identity each, in order (R459). -/
def splitFlits (e : Sched) (l : List Blk) : List (List Blk) :=
  let same (a b : Blk) : Bool := decide (outFmt e a = outFmt e b ∧ a.sid = b.sid ∧ a.pt = b.pt ∧ a.bslot = b.bslot ∧ a.cause = b.cause)
  ((l.foldl (fun (acc : List (List Blk)) b => match acc with
    | (c :: g) :: gs => if same b c && decide (g.length + 1 < outMost (outFmt e b)) then (b :: c :: g) :: gs else [b] :: acc
    | _ => [b] :: acc) []).map List.reverse).reverse

/-- The INT8 exponent that a stream declares, 127 where it declares none (R148, R390). -/
def int8Of (sid : Nat) (s : State) : Nat := let e := (strmAt sid s).ent; if e.state = 0 then 127 else e.int8exp

/-- Bytes of a block in a flit's body (R148, R459). -/
def outBytes (e : Sched) (b : Blk) (s : State) : List Byte :=
  if e.edge = 0 then blkBytes b
  else (edgeOut (e.edge - 1) (int8Of b.sid s) b).flatMap (fun v => leBytes (edgeWidth (e.edge - 1)) v)

/-- Number of a slot's system pitch (R466). -/
def slotSpid (x : Slot) (s : State) : Nat := linkByte x.img 0 s

/-- The flits of an action: SUB rises with the lines they fill, LAST and TOKC stand in the last (R456, R467, R468). -/
def actionFlits (p : Nat) (x : Slot) (e : Sched) (step : Nat) : Nat → List (List Blk) → State → List Flit
  | _, [], _ => []
  | sub, g :: gs, s =>
    let h := nth (zeroBlk .a8 false 0 0 0 0) g 0
    let lines := if e.edge ≠ 0 then g.length else runLines g
    let f : Flit := {
      type := ftData, early := x.early, last := gs.isEmpty, lseq := 0, vc := if p < 5 then hopVc p 5 0 s else 0,
      dst := if p < 5 then e.dst else 0xFFFF, src := myCoord s, spid := if p < 5 then slotSpid x s else e.dspid, fmt := outFmt e h,
      dcl := e.dcl, sub := sub % 1024, kind := e.kind, sid := h.sid, cause := h.cause, pt := h.pt, step := step, slot := h.bslot,
      nblk := g.length, tokc := if gs.isEmpty then e.tokc else 0, crcOk := true,
      body := slice (g.flatMap (fun b => outBytes e b s)) 0 608 }
    f :: actionFlits p x e step (if e.kind = 0 ∨ e.kind = 3 then sub + lines else sub) gs s

/-- Send an action's flits on its port (R468, R469). -/
def sendAction (p n desc step : Nat) (blks : List Blk) (s : State) : State :=
  let x := slotAt n s
  let e := schedOf x p desc
  let out := blks.zipIdx.map (fun (b, i) => narrowOut p step e i b)
  (actionFlits p x e step e.sub (splitFlits e out) s).foldl (fun s f =>
    if p < 5 then sendFlit p f s else sdtQueue (p - 5) (e.dst % 4096) n f s) s

/-- The blocks that a pending action takes: its entry's number from the source cluster's queue, in arrival order, none of them awaited
again (R468, R504); or the blocks it took before (R509). -/
def actionBlks (p n desc step : Nat) (s : State) : Option (List Egr) :=
  let x := slotAt n s
  let y := portAt p s
  let e := schedOf x p desc
  let l : List Egr := match y.kept.find? (fun a => a.slot = n ∧ a.desc = desc ∧ a.step = step) with
    | some a => a.blks
    | none => (y.blocks.filter (fun b => b.scl = e.srccl ∧ b.pitch = x.pitch)).take e.nblk
  if l.length = e.nblk ∧ l.all (fun b => !b.due) then some l else none

/-- The first pending action of a port that may start: its blocks are present, no earlier one takes from the same source cluster, and
no RECALL flit of its slot is due (R468, R509). -/
def readyAction (p : Nat) (s : State) : Option (Nat × Nat × Nat × List Egr) :=
  (List.range 16).foldl (fun best n => match best with
    | some b => some b
    | none =>
      let x := slotAt n s
      if (List.range 13).any (fun k => (portAt k s).owed.any (fun o => o.1 = n)) then none
      else
        let mine := x.links.filter (fun l => l.1 = p)
        let free := mine.zipIdx.filter (fun (l, i) =>
          !((mine.take i).any (fun m => (schedOf x p m.2.1).srccl = (schedOf x p l.2.1).srccl)))
        free.foldl (fun best (l, _) => match best with
          | some b => some b
          | none => (actionBlks p n l.2.1 l.2.2 s).map (fun bs => (n, l.2.1, l.2.2, bs))) none) none

/-- LINK_ACTION_START (R468, R469, R509): the next link action of a port takes its blocks. Under early egress its flits leave at once and
the blocks are kept for a replay; under hold egress it waits for its confirmation. -/
def execLinkActionStart (p : Nat) (s : State) : Host.Outcome State Fault Refusal :=
  match readyAction p s with
  | none => .next s
  | some (n, desc, step, bs) =>
    let x := slotAt n s
    let act : LinkAct := { slot := n, desc := desc, step := step, blks := bs }
    let s := setSlot n { x with links := x.links.erase (p, desc, step) } s
    let y := portAt p s
    let again := y.kept.any (fun a => decide (a.slot = n ∧ a.desc = desc ∧ a.step = step))
    let y := if again then y else { y with blocks := bs.foldl (fun l b => l.erase b) y.blocks }
    if !x.early then .next (setPort p { y with held := y.held ++ [act] } s)
    else
      let kept := y.kept.filter (fun a => decide (¬ (a.slot = n ∧ (step > a.step + 192 ∨ (a.desc = desc ∧ a.step = step)))))
      .next (sendAction p n desc step (bs.map (·.blk)) (setPort p { y with kept := kept ++ [act] } s))

/-- HOLD_CONFIRM (R469, R509): a held action leaves once its source cluster has completed its step and none of its blocks is awaited
again. -/
def execHoldConfirm (p : Nat) (s : State) : Host.Outcome State Fault Refusal :=
  let y := portAt p s
  let may (a : LinkAct) : Bool :=
    let c := (schedOf (slotAt a.slot s) p a.desc).srccl
    decide (a.step < (cluAt c s).completed) && a.blks.all (fun b => !b.due)
  match y.held.find? may with
  | none => .next s
  | some a => .next (sendAction p a.slot a.desc a.step (a.blks.map (·.blk)) (setPort p { y with held := y.held.erase a } s))

-- RECALL flits that leave (R509) ------------------------------------------------------------------------------------------------------------

/-- A RECALL flit naming step j (R457). -/
def recallFlit (spid dst j : Nat) (s : State) : Flit :=
  { nearFlit ftRecall 2 (slice (leBytes 6 j ++ leBytes 2 (myCoord s)) 0 608) s with spid := spid, dst := dst }

/-- Count a RECALL flit that leaves (R527, R532, R680). -/
def countRecall (s : State) : State := countDie 0xA2 0 1 (bump pgDie 0x240 31 0 1 s)

/-- ETH peers that a slot's schedules name, with the port, the peer and its SPID there. -/
def slotPeers (x : Slot) : List (Nat × Nat × Nat) :=
  (x.scheds.flatMap (fun t => if t.1 < 5 then [] else (List.range (t.2.length / 16)).map (fun d =>
    let e := schedOf x t.1 d; (t.1 - 5, e.dst % 4096, e.dspid)))).eraseDups

/-- Whether flits of a step from j on of a system pitch still wait at a port. -/
def flitsWait (spid j : Nat) (s : State) : Bool :=
  [0, 1, 2, 3, 4].any (fun p => (portAt p s).wait.any (fun f => decide (f.type = ftData ∧ f.src = myCoord s ∧ f.spid = spid ∧ j ≤ f.step)))

/-- RECALL_FLIT_SEND (R465, R509): once every flit of the recalled steps has left, the RECALL is flooded, and sent on each SDT path that
carried a flit of them. -/
def execRecallFlitSend (slot : Nat) (s : State) : Host.Outcome State Fault Refusal :=
  let owed := (List.range 13).flatMap (fun p => ((portAt p s).owed.filter (fun o => o.1 = slot)).map (fun o => (p, o.2)))
  match owed with
  | [] => .next s
  | (_, j0) :: _ =>
    let j := owed.foldl (fun a o => min a o.2) j0
    let x := slotAt slot s
    let spid := slotSpid x s
    let paths := (slotPeers x).filter (fun t => decide (j < SMap.get 0 (pathAt t.1 t.2.1 s).steps slot))
    if flitsWait spid j s || paths.any (fun t => (pathAt t.1 t.2.1 s).wait.any (fun f => decide (f.type = ftData ∧ j ≤ f.step))) then .next s
    else
      let s := foldRange 13 (fun p s => updPort p (fun y => { y with owed := y.owed.filter (fun o => o.1 ≠ slot) }) s) s
      let s := writeRec { kind := 4, pitch := x.pitch, step := j } (noteRecall (myCoord s) j s)
      let s := if !owed.any (fun o => decide (o.1 < 5)) then s else
        (match spaOf spid s with
         | none => s
         | some n => (floodPorts (spaRect n s) s).foldl (fun s p => countRecall (sendFlit p (recallFlit spid (wantCoord p s) j s) s)) s)
      .next (paths.foldl (fun s t => countRecall (sdtQueue t.1 t.2.1 slot (recallFlit t.2.2 0xFFFF j s) s)) s)

end Sys2Proof.Machine
end

