-- ==== Sys2Proof/Machine/Eth.lean ====
section
/-! DEFINITION. Ethernet ports, the receiving side of SDT, and rack time (R473–R486, R493, R494). -/

namespace Sys2Proof.Machine

-- The receive filter (R473, R475) ----------------------------------------------------------------------------------------------

/-- A port's own MAC and IPv6 address as big-endian numbers (R490). -/
def ethMac (e : Nat) (s : State) : Nat := rf (pgEth e) 0x10C 15 0 s * 2 ^ 32 + (rd (pgEth e) 0x108 s).toNat
def ethIp (e : Nat) (s : State) : Nat :=
  foldRange 4 (fun i a => a * 2 ^ 32 + (rd (pgEth e) (0x118 + 4 * i) s).toNat) 0

/-- Whether the filter takes a frame: SDT or PTP. -/
def ethTakes (e : Nat) (f : EthFrame) (s : State) : Bool :=
  let ptp := rb (pgEth e) 0x100 1 s
  let sdt := decide (f.dport = rf (pgEth e) 0x128 15 0 s)
  (decide (f.dmac = ethMac e s) || (f.ptpMac && ptp)) && decide (f.etype = 0x86DD) && !f.ext && decide (f.nexthdr = 17) &&
    (decide (f.dip = ethIp e s) || f.ptpIp) &&
    ((sdt && decide (ethIp e s ≠ 0 ∧ f.ver = 1 ∧ f.kind ≤ 4)) || (!sdt && ptp && decide (f.dport = 319 ∨ f.dport = 320)))

/-- ETH_FRAME_RECEIVE (R473, R475, R490): a frame that the filter refuses, or an SDT packet of another version or a reserved kind, is counted
in ETH_DROP; the others go on to the rows of their kind. A frame that comes shows the link up, and what the PCS reports (log 111); a port that is not
enabled receives none. -/
def execEthFrameReceive (e : Nat) (f : EthFrame) (s : State) : Host.Outcome State Fault Refusal :=
  if !rb (pgEth e) 0x100 0 s then .next s
  else
    let s := wb (pgEth e) 0x104 2 f.hiber (wb (pgEth e) 0x104 0 true s)
    .next (if ethTakes e f s then s else bump (pgEth e) 0x12C 31 0 1 s)

-- SDT at the receiver (R476, R477, R480) ------------------------------------------------------------------------------------------

/-- Whether a packet matches a valid peer entry of its port (R476). -/
def pathKnown (e peer : Nat) (s : State) : Bool := peerValid peer s && decide (peerPort peer s = e) && ethOn e s

/-- Send an ACK of what a path has received (R475, R477). -/
def sdtAckOut (e peer : Nat) (s : State) : State :=
  let x := pathAt e peer s
  let sack := sumN ((x.ahead.map (fun a => (a.1 + 2 ^ 32 - x.psnIn - 1) % 2 ^ 32)).eraseDups.map (fun i => if i < 64 then 2 ^ i else 0))
  sdtSend e peer 1 0 0 x.psnIn sack [] (setPath e peer { x with owed := 0 } s)

/-- A receipt: every eighth is acknowledged, the others wait for 2 µs (R477). -/
def sdtOwe (e peer : Nat) (s : State) : State :=
  let x := pathAt e peer s
  let s := setPath e peer { x with owed := x.owed + 1, owedAt := if x.owed = 0 then now s else x.owedAt } s
  if 8 ≤ x.owed + 1 then sdtAckOut e peer s else s

/-- A group of 32 edge elements as an A8 block; none where an element is NaN or infinite (R148, R150, R480). -/
def edgeGroup (fmt i8 : Nat) (bs : List Byte) : Option Blk :=
  let w := edgeWidth fmt
  let vs := (List.range 32).map (fun i => leAt bs (w * i) w)
  if fmt ≠ 0 ∧ vs.any (fun v => (edgeVal fmt i8 v).isNone) then none else some (nth (zeroBlk .a8 false 0 0 0 0) (edgeIn fmt i8 vs) 0)

/-- The blocks of an SDT flit, and whether a group was refused (R459, R480). -/
def sdtBlks (f : Flit) (s : State) : List Blk × Bool :=
  if f.fmt < 4 then (flitBlks f, false)
  else
    let fmt := f.fmt - 0x10
    let size := 32 * edgeWidth fmt
    let l := (List.range (min f.nblk (outMost f.fmt))).map (fun i => edgeGroup fmt (int8Of f.sid s) (slice f.body (size * i) size))
    (l.map (fun o => match o with
      | some b => { b with cause := f.cause, pt := f.pt, sid := f.sid, bslot := f.slot }
      | none => zeroBlk .a8 false causeIllegal f.pt f.sid f.slot), l.any (·.isNone))

/-- Note that a non-finite input failed a batch slot of a pitch: its tokens in flight end with NONFINITE (R480, R581). -/
def noteNonfinite (pitch bslot : Nat) (s : State) : State :=
  match slotOfPitch pitch s with
  | none => s
  | some n =>
    let x := slotAt n s
    let l := ((x.exiting.map (·.2) ++ x.batches).filter (fun b => b.tokens.any (fun t => t.1 = bslot))).map (fun b => (b.no, bslot))
    setSlot n { x with nonfin := x.nonfin ++ l.filter (fun h => !x.nonfin.contains h) } s

/-- A DATA flit from SDT by the DSPID it carries (R458, R480). -/
def sdtFlitData (e peer psn : Nat) (f : Flit) (s : State) : State :=
  match spaOf f.spid s with
  | none => bump (pgEth e) 0x12C 31 0 1 s
  | some n =>
    if !rb pgTop (0x140 + 8 * n) 12 s then bump (pgEth e) 0x12C 31 0 1 s
    else
      let pitch := rf pgTop (0x140 + 8 * n) 11 8 s
      let (bs, bad) := sdtBlks f s
      let s := flitNotes (pgEth e) f s
      let s := if bad then sdtSend e peer 4 2 psn 0 0 [] (noteNonfinite pitch f.slot s) else s
      let (w, s) := freeCause s
      deliverFlit (5 + e) (65536 + peer) pitch f (if f.crcOk then bs else bs.map (fun b => { b with cause := w })) s

/-- One flit of an SDT packet, in PSN order: DATA is delivered and RECALL acted on; the shard flits have their own rows; a flit of any
other type or a reserved format is refused with BADFLIT (R459, R475, R480, R509). -/
def sdtFlit (e peer psn : Nat) (f : Flit) (s : State) : State :=
  if f.type = ftData ∧ (f.fmt < 4 ∨ (0x10 ≤ f.fmt ∧ f.fmt ≤ 0x14)) then sdtFlitData e peer psn f s
  else if f.type = ftRecall then
    if f.crcOk then recallAct [5 + e] (65536 + peer) (leAt f.body 6 2) (leAt f.body 0 6) s else bump (pgEth e) 0x12C 31 0 1 s
  else if f.type = ftShreq ∨ f.type = ftShdata ∨ f.type = ftShref then s
  else sdtSend e peer 4 3 psn 0 0 [] (bump (pgEth e) 0x12C 31 0 1 s)

/-- Take a packet that is expected, and those held behind it (R477); `fuel` bounds them. -/
def sdtTake : Nat → Nat → Nat → List Flit → State → State
  | 0, _, _, _, s => s
  | fuel + 1, e, peer, flits, s =>
    let x := pathAt e peer s
    let s := setPath e peer { x with psnIn := (x.psnIn + 1) % 2 ^ 32 } s
    let s := flits.foldl (fun s f => sdtFlit e peer x.psnIn f s) s
    let y := pathAt e peer s
    match y.ahead.find? (fun a => a.1 = y.psnIn) with
    | none => s
    | some a => sdtTake fuel e peer a.2 (setPath e peer { y with ahead := y.ahead.filter (fun b => b.1 ≠ a.1) } s)

/-- SDT_DATA (R476, R477): a packet of a path that is not open is answered NOPATH; one in order is delivered with those held behind it; one
ahead of them is held; a duplicate is acknowledged again. -/
def execSdtData (e path psn : Nat) (flits : List Flit) (s : State) : Host.Outcome State Fault Refusal :=
  if !pathKnown e path s then .next s
  else
    let s := countDie 0x99 e 1 s
    let x := pathAt e path s
    let d := (psn + 2 ^ 32 - x.psnIn) % 2 ^ 32
    if !x.opened then .next (sdtSend e path 4 1 psn 0 0 [] s)
    else if flits.isEmpty ∨ 13 < flits.length then .next (bump (pgEth e) 0x12C 31 0 1 s)
    else if d = 0 then .next (sdtOwe e path (sdtTake 257 e path flits s))
    else if 2 ^ 31 ≤ d ∨ x.ahead.any (fun a => a.1 = psn) then .next (sdtAckOut e path s)
    else if 256 < d ∨ 256 ≤ x.ahead.length then .next s
    else .next (sdtOwe e path (setPath e path { x with ahead := x.ahead ++ [(psn, flits)] } s))

/-- SDT_ACK (R477): covered packets are free, and waiting flits leave. -/
def execSdtAck (e path ackpsn : Nat) (sack : List Nat) (s : State) : Host.Outcome State Fault Refusal :=
  if !pathKnown e path s then .next s
  else
    let got (k : SdtPkt) : Bool :=
      decide (k.psn ≠ ackpsn ∧ (ackpsn + 2 ^ 32 - k.psn) % 2 ^ 32 < 2 ^ 31) || sack.any (fun i => k.psn == (ackpsn + 1 + i) % 2 ^ 32)
    .next (sdtRun e path (updPath e path (fun x => { x with sent := x.sent.filter (fun k => !got k) }) s))

/-- Both numbers of a path go back to 0; packets not acknowledged wait to be sent again (R476). -/
def sdtZero (x : Path) : Path :=
  { x with wait := x.sent.flatMap (·.flits) ++ x.wait, sent := [], psnOut := 0, psnIn := 0, ahead := [], owed := 0, asked := false }

/-- SDT_OPEN (R476). -/
def execSdtOpen (e path : Nat) (s : State) : Host.Outcome State Fault Refusal :=
  if !pathKnown e path s then .next s
  else .next (sdtRun e path (sdtSend e path 3 0 0 0 0 [] (updPath e path (fun x => { sdtZero x with opened := true }) s)))

/-- SDT_OPENACK (R476): the path that asked is open. -/
def execSdtOpenack (e path : Nat) (s : State) : Host.Outcome State Fault Refusal :=
  if !pathKnown e path s ∨ !(pathAt e path s).asked then .next s
  else .next (sdtRun e path (updPath e path (fun x => { sdtZero x with opened := true }) s))

/-- SDT_ERROR (R475, R476): a reserved CODE is discarded and counted; NOPATH makes the sender open the path again; NONFINITE and BADFLIT
leave the path as it is. -/
def execSdtError (e path code _psn : Nat) (s : State) : Host.Outcome State Fault Refusal :=
  if !pathKnown e path s then .next s
  else if code = 0 ∨ 3 < code then .next (bump (pgEth e) 0x12C 31 0 1 s)
  else if code ≠ 1 then .next s
  else .next (sdtAsk e path (updPath e path (fun x => { sdtZero x with opened := false }) s))

/-- SDT_ACK_TIMER (R477). -/
def execSdtAckTimer (e path : Nat) (s : State) : Host.Outcome State Fault Refusal :=
  let x := pathAt e path s
  .next (if x.owed = 0 ∨ now s < x.owedAt + 2 * usec then s else sdtAckOut e path s)

/-- SDT_RTO (R476–R479, R490): a packet not covered within RTO is sent again, once the path's pace allows; after 16 times its path fails, and is asked
for anew. -/
def execSdtRto (e path psn : Nat) (s : State) : Host.Outcome State Fault Refusal :=
  let x := pathAt e path s
  match x.sent.find? (fun k => k.psn = psn) with
  | none => .next s
  | some k =>
    if now s < k.time + usec * rf (pgEth e) 0x128 31 16 s then .next s
    else if 16 ≤ k.tries then .next (sdtAsk e path (sdtFail e path s))
    else if !paceOpen e path s then .next s
    else
      let s := setPath e path { x with pace := paceAfter e path k.flits.length s,
                                       sent := x.sent.map (fun y => if y.psn = psn then { y with tries := y.tries + 1, time := now s } else y) } s
      .next (sdtSend e path 0 0 psn 0 0 k.flits (countDie 0x9A e 1 (bump (pgEth e) 0x130 31 0 1 s)))

-- The peer table (R493) -------------------------------------------------------------------------------------------------------------

/-- The index after one access: WORD advances and carries into ENTRY. -/
def peerNext (w : Word) : Word :=
  let i := getF w 11 0 * 8 + getF w 14 12 + 1
  setF (setF w 14 12 i) 11 0 (i / 8)

/-- A read of TOP_PEERDATA. -/
def peerRead (q : Requester) (s : State) : Word × State :=
  let w := rdQ q pgTop 0x200 s
  (peerWord (getF w 11 0) (getF w 14 12) s, wrQ q pgTop 0x200 (peerNext w) s)

/-- A write of TOP_PEERDATA: one to an entry whose path is open resets the path. Bits that R493 gives as 0 stay 0 (R22). -/
def peerWrite (q : Requester) (v : Word) (s : State) : State :=
  let w := rdQ q pgTop 0x200 s
  let s := wrQ q pgTop 0x200 (peerNext w) s
  if locked pgTop s then recordErr pgTop errLOCKWR s
  else
    let n := getF w 11 0
    let s := if (pathAt (peerPort n s) n s).opened then sdtFail (peerPort n s) n s else s
    let i := getF w 14 12
    let kept := if 6 ≤ i then 0 else if i = 4 then v &&& 0x03FFFFFF#32 else v
    recIf (decide (kept ≠ v)) pgTop errRESWR { s with peers := SMap.set 0 s.peers (n * 8 + i) kept }

/-- PEER_DATA_ACCESS (R493): a read, or a write of the addressed word. -/
def execPeerDataAccess (q : Requester) (w : Option Word) (s : State) : Host.Outcome State Fault Refusal :=
  match w with
  | none => .next (guardRead q pgTop (peerRead q) s)
  | some v => .next (guardWrite q pgTop 0x204 (peerWrite q v) s)

-- Rack time (R482–R486, R494) --------------------------------------------------------------------------------------------------------

/-- Periods between epoch boundaries (R482). -/
def epochLen : Nat := 100000

/-- The nearest epoch boundary to a time; halfway, which of the two is not stated and is free (R483). -/
def nearestEpoch (t : Nat) (s : State) : Nat × State :=
  let r := t % epochLen
  if 2 * r < epochLen then (t - r, s)
  else if epochLen < 2 * r then (t - r + epochLen, s)
  else let (w, s) := takeFree s; (t - r + epochLen * (w % 2), s)

/-- The port that runs PTP (R490). -/
def ptpPort (s : State) : Option Nat := firstBelow 8 (fun e => rb (pgEth e) 0x100 1 s)

/-- Report PTP time minus rack time at an epoch edge, and RT_DRIFT beyond 10 µs (R484). -/
def reportDrift (s : State) : State :=
  match s.ptpOfs, ptpPort s with
  | some o, some e =>
    let s := wr64 (pgEth e) 0x138 (tc 64 o) s
    if 10000 < o.natAbs then fire 82 s else s
  | _, _ => s

/-- Gates that wait for the epoch send their messages (R276, R277). -/
def epochGates (s : State) : State :=
  foldRange 16 (fun n s => match (slotAt n s).gates with
    | (k, none, samples) :: rest => sendGate n k samples (updSlot n (fun x => { x with gates := rest }) s)
    | _ => s) s

/-- EPOCH_IN (R276, R482–R484, R494): rack time goes to the nearest boundary, or to the first value that waits. The times of start-up
(R704) move with it. -/
def execEpochIn (s : State) : Host.Outcome State Fault Refusal :=
  let usePtp := s.ptpArm
  let armed : Option Nat := if usePtp then some ((now s : Int) + s.ptpOfs.getD 0 / 10).toNat else s.rtArm
  let old := now s
  let (t, s) := nearestEpoch (armed.getD old) s
  let src := if usePtp then 1 else 2
  let s := if armed.isSome && decide (rf pgTop 0x1C8 2 1 s = 0) then wf pgTop 0x1C8 2 1 src s else s
  let step := decide (armed.isNone ∧ 2 < (max t old - min t old))
  let s := if step then fire 81 (bump pgTop 0x1C8 31 16 1 s) else s
  let s := wb pgTop 0x1C8 0 false { s with
    rack := BitVec.ofNat 64 t, rtArm := none, ptpArm := false, ptpOfs := s.ptpOfs.map (fun o => o - 10 * ((t : Int) - old)) }
  let b := s.boot
  .next (epochGates (layerEpoch (reportDrift { s with
    epochAt := some t, boot := { b with roseAt := b.roseAt + t - old, stageAt := b.stageAt + t - old, rowAt := b.rowAt + t - old } })))

/-- A write of TOP_RTSET_HI arms the value for the next EPOCH_IN edge (R494). -/
def rtsetWrite (hi : Word) (s : State) : State :=
  wb pgTop 0x1C8 0 true (wr pgTop 0x1C4 hi { s with rtArm := some ((rd pgTop 0x1C0 s).toNat + 2 ^ 32 * hi.toNat) })

/-- RTSET_ARM (R494). -/
def execRtsetArm (q : Requester) (hi : Word) (s : State) : Host.Outcome State Fault Refusal := .next (guardWrite q pgTop 0x1C4 (rtsetWrite hi) s)

/-- PTP_MESSAGE (R484): PTP time in ns on the port that runs it. A lock during start-up supplies the first rack time; later ones only
measure. -/
def execPtpMessage (e time : Nat) (lock : Bool) (s : State) : Host.Outcome State Fault Refusal :=
  if !rb (pgEth e) 0x100 1 s then .next s
  else
    let s := wb (pgEth e) 0x104 1 lock { s with ptpOfs := some ((time : Int) - 10 * (now s : Int)) }
    .next (if lock && !rb pgDie 0x104 30 s && decide (rf pgTop 0x1C8 2 1 s = 0) then { s with ptpArm := true } else s)

end Sys2Proof.Machine
end

