-- ==== Sys2Proof/Machine/Manifest.lean ====
section
/-! DEFINITION. A load manifest in stack memory (R397–R403) and the checks of CHECKMAN (R406, R408). -/

namespace Sys2Proof.Machine

-- Header and tables (R398–R403) ----------------------------------------------------------------------------------------------

/-- Field values of "none" in a manifest. -/
def mfNone : Nat := 0xFFFFFFFF

def mLen (a : Nat) (s : State) : Nat := ib a 0x08 8 s
def mJoin (a : Nat) (s : State) : Bool := bit (ib a 0x07 1 s) 0
/-- The rectangle of the tiles: PX0, PY0, PW, PH. -/
def mRect (a i : Nat) (s : State) : Nat := ib a (0x10 + 2 * i) 2 s
def nTen (a : Nat) (s : State) : Nat := ib a 0x18 4 s
def nShard (a : Nat) (s : State) : Nat := ib a 0x1C 4 s
def nTile (a : Nat) (s : State) : Nat := ib a 0x20 4 s
def nSrc (a : Nat) (s : State) : Nat := ib a 0x24 4 s
def nEp (a : Nat) (s : State) : Nat := ib a 0x28 2 s
/-- Offset of table i: tensors, shards, tiles, sources, endpoints. -/
def mOff (a i : Nat) (s : State) : Nat := ib a (0x30 + 8 * i) 8 s

/-- The manifest digest, and its signature (R397). -/
def mDigest (a : Nat) (s : State) : List Byte := sha3 (memRead a (mLen a s - sigLen) s)
def mSig (a : Nat) (s : State) : List Byte := memRead (a + mLen a s - sigLen) sigLen s

/-- A tensor entry (R399). -/
structure Ten where
  form  : Nat
  fmt   : Nat
  read  : Nat
  k     : Nat
  n     : Nat
  scale : Nat
  bias  : Nat
deriving DecidableEq, Repr

/-- Tensor entry i. -/
def tenAt (a i : Nat) (s : State) : Ten :=
  let p := mOff a 0 s + 32 * i
  { form := ib a p 1 s, fmt := ib a (p + 1) 1 s % 8, read := ib a (p + 2) 1 s % 32, k := ib a (p + 4) 4 s, n := ib a (p + 8) 4 s,
    scale := ib a (p + 12) 4 s, bias := ib a (p + 16) 4 s }

/-- Weight forms and packed forms (R399). -/
def Ten.weight (t : Ten) : Bool := decide (t.form < 6)
def Ten.packed (t : Ten) : Bool := decide (t.form < 3)

/-- Bits of an element (R400). -/
def formBits (form : Nat) : Nat := nth 8 [2, 2, 1, 16, 8, 8, 16, 16, 32] form

/-- Bytes of a tensor's stream. -/
def Ten.len (t : Ten) : Nat := (t.k * t.n * formBits t.form + 7) / 8

/-- Row and column tiles of a weight tensor (R403). -/
def Ten.tiles (t : Ten) : Nat × Nat := ((t.k + 127) / 128, (t.n + 127) / 128)

/-- A shard entry (R401). -/
structure Shard where
  ten    : Nat
  enc    : Nat
  nsrc   : Nat
  off    : Nat
  stored : Nat
  raw    : Nat
  srcs   : List Nat
deriving DecidableEq, Repr

/-- Address of shard entry i in the manifest, the entry, and its digest. -/
def shOff (a i : Nat) (s : State) : Nat := mOff a 1 s + 128 * i
def shardAt (a i : Nat) (s : State) : Shard :=
  let p := shOff a i s
  { ten := ib a (p + 64) 4 s, enc := ib a (p + 68) 1 s, nsrc := ib a (p + 69) 1 s, off := ib a (p + 72) 8 s, stored := ib a (p + 80) 8 s,
    raw := ib a (p + 88) 8 s, srcs := (List.range 4).map (fun j => ib a (p + 96 + 4 * j) 4 s) }
def shDigest (a i : Nat) (s : State) : List Byte := memRead (a + shOff a i s) 64 s

/-- A source entry (R402): KIND 0 NEIGHBOUR, 1 STACK, 2 STORAGE. -/
structure Src where
  kind : Nat
  port : Nat
  ep   : Nat
  addr : Nat
  obj  : List Byte
deriving DecidableEq, Repr

/-- Source entry i. -/
def srcAt (a i : Nat) (s : State) : Src :=
  let p := mOff a 3 s + 32 * i
  { kind := ib a p 1 s, port := ib a (p + 1) 1 s, ep := ib a (p + 2) 2 s, addr := ib a (p + 8) 8 s, obj := memRead (a + p + 16) 16 s }

/-- A tile entry (R403). -/
structure Tile where
  ten   : Nat
  tk    : Nat
  tn    : Nat
  clu   : Nat
  unit  : Nat
  plane : Nat
deriving DecidableEq, Repr

/-- Tile entry i. -/
def tileAt (a i : Nat) (s : State) : Tile :=
  let p := mOff a 2 s + 16 * i
  { ten := ib a p 4 s, tk := ib a (p + 4) 2 s, tn := ib a (p + 6) 2 s, clu := ib a (p + 8) 2 s, unit := ib a (p + 10) 1 s,
    plane := ib a (p + 11) 1 s }

/-- Every tile, tensor and shard. -/
def tilesOf (a : Nat) (s : State) : List Tile := (List.range (nTile a s)).map (fun i => tileAt a i s)
def tensOf (a : Nat) (s : State) : List Ten := (List.range (nTen a s)).map (fun i => tenAt a i s)
def shardsOf (a : Nat) (s : State) : List Shard := (List.range (nShard a s)).map (fun i => shardAt a i s)

-- The checks (R397–R403, R408) ----------------------------------------------------------------------------------------------------

/-- A failure with its code and the index of its entry (R407, R408). -/
def badIf (b : Bool) (code i : Nat) : Check := failIf b code 0 i 0

/-- Whether some of n bytes of the manifest at an offset are not zero. -/
def mfRsv (a off n : Nat) (s : State) : Bool := nonZero (memRead (a + off) n s)

/-- The tables as ranges of the manifest (R398). -/
def mfTables (a : Nat) (s : State) : List (Nat × Nat) :=
  [(mOff a 0 s, 32 * nTen a s), (mOff a 1 s, 128 * nShard a s), (mOff a 2 s, 16 * nTile a s), (mOff a 3 s, 32 * nSrc a s), (mOff a 4 s, 32 * nEp a s)]

/-- 0x01: the signature, by the operator key (R397). -/
def mfSignature (a : Nat) (s : State) : Check :=
  badIf (s.opKey.isEmpty || !Config.mldsaVerify s.opKey (mDigest a s) (mSig a s)) 0x01 0

/-- Whether the shards of tensor i cover its stream without gap or overlap (R401): each begins where the bytes before it end. -/
def coversStream (l : List Shard) (len : Nat) : Bool :=
  l.all (fun x => decide (x.off + x.raw ≤ len) && decide (x.off = 0 ∨ ((l.filter (fun y => y.off + y.raw = x.off)).length = 1)) &&
    decide ((l.filter (fun y => y.off < x.off + x.raw ∧ x.off < y.off + y.raw)).length = 1)) && decide (sumN (l.map (·.raw)) = len)

/-- 0x02: header fields, table places, and entry fields outside their range (R398–R402). -/
def mfHeader (a : Nat) (s : State) : Check :=
  let (x, y, w, h) := (mRect a 0 s, mRect a 1 s, mRect a 2 s, mRect a 3 s)
  let tabs := mfTables a s
  firstOf [badIf (ib a 0 4 s ≠ 0x464D5A4D ∨ ib a 4 2 s ≠ 1 ∨ ib a 6 1 s ≠ 1) 0x02 0,
    badIf (!decide (256 + sigLen ≤ mLen a s ∧ a + mLen a s ≤ mapTop)) 0x02 0,
    badIf (!decide (x % 4 = 0 ∧ y % 4 = 0 ∧ w % 4 = 0 ∧ h % 4 = 0 ∧ 0 < w ∧ 0 < h ∧ x + w ≤ 128 ∧ y + h ≤ 128)) 0x02 0,
    badIf (!decide (1 ≤ nTen a s ∧ nTen a s ≤ 65536 ∧ 1 ≤ nShard a s ∧ nShard a s ≤ 16777216 ∧ 1 ≤ nTile a s ∧ nTile a s ≤ 2097152 ∧
      1 ≤ nSrc a s ∧ nSrc a s ≤ 16777216 ∧ nEp a s ≤ 256)) 0x02 0,
    each tabs.zipIdx (fun (t, i) => badIf (!decide (256 ≤ t.1 ∧ t.1 + t.2 ≤ mLen a s - sigLen) ||
      tabs.zipIdx.any (fun (v, j) => decide (i ≠ j) && overlap t v)) 0x02 0),
    each (List.range (nShard a s)) (fun i =>
      let x := shardAt a i s
      badIf (!decide (x.ten < nTen a s ∧ 1 ≤ x.nsrc ∧ x.nsrc ≤ 4 ∧ 1 ≤ x.stored ∧ x.stored ≤ 2 ^ 32 ∧ 1 ≤ x.raw ∧ x.raw ≤ 2 ^ 32 ∧
        (x.enc ≠ 0 ∨ x.raw = x.stored)) || (x.srcs.take x.nsrc).any (fun j => decide (nSrc a s ≤ j))) 0x02 i),
    each (List.range (nSrc a s)) (fun i =>
      let x := srcAt a i s
      badIf ((x.kind = 0 ∧ 4 < x.port) ∨ (x.kind = 2 ∧ nEp a s ≤ x.ep) ∨ (x.kind = 1 ∧ mapTop ≤ x.addr)) 0x02 i),
    each (List.range (nTile a s)) (fun i => let t := tileAt a i s; badIf (nTen a s ≤ t.ten ∨ 63 < t.unit) 0x02 i),
    each (List.range (nTen a s)) (fun i =>
      badIf (!coversStream ((shardsOf a s).filter (fun x => x.ten = i)) (tenAt a i s).len) 0x02 i)]

/-- 0x03: reserved bytes and codes (R398–R403). -/
def mfReserved (a : Nat) (s : State) : Check :=
  firstOf [badIf (ib a 7 1 s ≥ 2 || mfRsv a 0x2A 6 s || mfRsv a 0x58 168 s) 0x03 0,
    each (List.range (nTen a s)) (fun i =>
      let p := mOff a 0 s + 32 * i
      badIf (8 < ib a p 1 s || 7 < ib a (p + 1) 1 s || 31 < ib a (p + 2) 1 s || mfRsv a (p + 3) 1 s || mfRsv a (p + 20) 12 s ||
        (5 < ib a p 1 s && mfRsv a (p + 1) 2 s)) 0x03 i),
    each (List.range (nShard a s)) (fun i =>
      let p := shOff a i s
      let x := shardAt a i s
      badIf (1 < x.enc || mfRsv a (p + 70) 2 s || mfRsv a (p + 112) 16 s || (x.srcs.drop x.nsrc).any (· ≠ 0)) 0x03 i),
    each (List.range (nSrc a s)) (fun i =>
      let p := mOff a 3 s + 32 * i
      let x := srcAt a i s
      badIf (2 < x.kind || mfRsv a (p + 4) 4 s || (x.kind ≠ 0 && x.port ≠ 0) || (x.kind ≠ 2 && (x.ep ≠ 0 || nonZero x.obj)) ||
        (x.kind = 0 && x.addr ≠ 0)) 0x03 i),
    each (List.range (nEp a s)) (fun i => badIf (mfRsv a (mOff a 4 s + 32 * i + 18) 14 s) 0x03 i),
    each (List.range (nTile a s)) (fun i =>
      let p := mOff a 2 s + 16 * i
      badIf (1 < ib a (p + 11) 1 s || mfRsv a (p + 12) 4 s) 0x03 i)]

/-- Whether a weight tensor's SCALE and BIAS name tensors of the right form and size (R399, R408). -/
def tenRefsOk (a : Nat) (t : Ten) (s : State) : Bool :=
  let named (i : Nat) (f : Ten → Bool) : Bool := decide (i < nTen a s) && f (tenAt a i s)
  (if t.packed then named t.scale (fun u => decide (u.form = 6 ∧ u.k = (t.k + 127) / 128 ∧ u.n = t.n)) else decide (t.scale = mfNone)) &&
    (decide (t.bias = mfNone) || (t.weight && named t.bias (fun u => decide ((u.form = 7 ∨ u.form = 8) ∧ u.k = 1 ∧ u.n = t.n))))

/-- 0x04: tiles, planes, scales and biases (R403, R408). -/
def mfPlacement (a : Nat) (s : State) : Check :=
  let tiles := tilesOf a s
  let need := sumN ((tensOf a s).map (fun t => if t.weight then t.tiles.1 * t.tiles.2 else 0))
  firstOf [each ((tensOf a s).zipIdx) (fun (t, i) => badIf (!tenRefsOk a t s) 0x04 i),
    each tiles.zipIdx (fun (t, i) =>
      let e := tenAt a t.ten s
      let (x, y) := (t.clu % 128, t.clu / 128)
      badIf (!e.weight || e.tiles.1 ≤ t.tk || e.tiles.2 ≤ t.tn || (t.plane = 1 && !mJoin a s) ||
        !decide (mRect a 0 s ≤ x ∧ x < mRect a 0 s + mRect a 2 s ∧ mRect a 1 s ≤ y ∧ y < mRect a 1 s + mRect a 3 s) ||
        (tiles.take i).any (fun v => decide ((v.ten = t.ten ∧ v.tk = t.tk ∧ v.tn = t.tn) ∨ (v.clu = t.clu ∧ v.unit = t.unit ∧ v.plane = t.plane)))) 0x04 i),
    badIf (tiles.length ≠ need) 0x04 0]

/-- 0x0D: the relay area of a ROW load (R408, R413): big enough, off the system area and off the extents of admitted images. -/
def mfRelay (a relay : Nat) (s : State) : Check :=
  let area := (relay, sumN ((shardsOf a s).map (·.stored)))
  badIf (mapTop < area.1 + area.2 || (sysRanges s).any (overlap area) || (allocSlots s).any (fun n => (slotAt n s).extents.any (overlap area))) 0x0D 0

/-- The record of a REPAIR: PARTIAL, with the manifest's digest (R439). -/
def repairRec (digest : List Byte) (s : State) : Option Nat :=
  firstBelow 256 (fun n => let r := SMap.get ResRec.free s.resrecs n; decide (r.st = 2) && r.digest == digest)

/-- The checks of CHECKMAN (R406), in the order of their codes. -/
def mfCheck (l : Loader) (s : State) : Check :=
  let a := l.man
  firstOf [mfSignature a s, mfHeader a s, mfReserved a s, mfPlacement a s, if l.mode = 1 then mfRelay a l.relay s else none,
    if l.mode = 2 then badIf (repairRec (mDigest a s) s).isNone 0x04 0 else none]

end Sys2Proof.Machine
end

