-- ==== Sys2Proof/Machine/Quant.lean ====
section
/-! DEFINITION. What a Stuffsack engine makes of a band (R416–R420, R422): stream bytes, quantisation, fill, and tile
records. -/

namespace Sys2Proof.Machine

-- Stream bytes of verified shards (R400, R401, R416) -----------------------------------------------------------------------------

/-- One byte of a tensor's stream, where a verified shard holds it. -/
def streamByte (a ten i : Nat) (s : State) : Option Byte :=
  let hit := s.ld.raw.find? (fun e => let x := shardAt a e.1 s; decide (x.ten = ten ∧ x.off ≤ i ∧ i < x.off + x.raw))
  hit.map (fun e => nth 0 e.2 (i - (shardAt a e.1 s).off))

/-- n bytes of a tensor's stream from byte i, where every one is held. -/
def streamBytes (a ten i n : Nat) (s : State) : Option (List Byte) := (List.range n).mapM (fun k => streamByte a ten (i + k) s)

/-- The stream bytes that a band of a weight tensor needs: tensor, first byte and number (R416). -/
def bandNeeds (a ten tk : Nat) (s : State) : List (Nat × Nat × Nat) :=
  let t := tenAt a ten s
  let bits := formBits t.form
  let lo := 128 * tk * t.n * bits / 8
  let hi := (min (128 * tk + 128) t.k * t.n * bits + 7) / 8
  [(ten, lo, hi - lo)] ++ (if t.packed then [(t.scale, 2 * tk * t.n, 2 * t.n)] else []) ++
    (if tk = 0 ∧ t.bias ≠ mfNone then [(t.bias, 0, (tenAt a t.bias s).len)] else [])

/-- Whether every byte that a band needs is held. -/
def bandHeld (a ten tk : Nat) (s : State) : Bool :=
  (bandNeeds a ten tk s).all (fun (t, lo, n) => (streamBytes a t lo n s).isSome)

/-- Whether a shard holds a byte that a band needs. -/
def shardInBand (a i ten tk : Nat) (s : State) : Bool :=
  let x := shardAt a i s
  (bandNeeds a ten tk s).any (fun (t, lo, n) => decide (t = x.ten) && overlap (lo, n) (x.off, x.raw))

/-- Element e of a stream, as a code of its form (R400). -/
def elemCode (a ten e : Nat) (s : State) : Nat :=
  let bits := formBits (tenAt a ten s).form
  let w := (bits + 7) / 8
  let v := leNat (((streamBytes a ten (e * bits / 8) w s).getD []))
  if bits < 8 then v / 2 ^ (e * bits % 8) % 2 ^ bits else v

/-- The value of a BF16, FP8 or FP32 element; none for NaN and infinity. -/
def elemVal (form v : Nat) : Option Dy :=
  match form with
  | 4 => e4m3Val v
  | 5 => e5m2Val v
  | 8 => fp32Val v
  | _ => bf16Val v

-- Levels (R112, R417, R418) ---------------------------------------------------------------------------------------------------------

/-- Levels in use of a cluster's format table, rising. -/
def fmtLevels (c f : Nat) (s : State) : List Nat := (List.range 4).filter (fun l => rb (.clu c) (0x1C0 + 8 * f) (24 + l) s)

/-- val(L) as an exact value (R112, R114): the zero point in halves of a level. -/
def levelVal (c f : Nat) (s : State) (l : Nat) : Dy :=
  let zp := rf (.clu c) (0x1C0 + 8 * f) 22 20 s
  let z2 : Int := if zp < 4 then 2 * zp else 2 * (zp - 4) + 1
  let v : Int := 2 * (l : Int) - z2
  ⟨if rb (.clu c) (0x1C0 + 8 * f) 19 s then -v else v, sx 3 (rf (.clu c) (0x1C0 + 8 * f) 18 16 s) - 1⟩

/-- |a| and a < b of exact values. -/
def dyAbs (a : Dy) : Dy := ⟨a.m.natAbs, a.e⟩
def dyLt (a b : Dy) : Bool := !dyLe b a

/-- The element of a list of levels that goes first by a strict order. DESIGN CHOICE (entry 87): a format table whose LEVELS is 0 has no level in
use, and quantisation and fill then take level 0. -/
def bestLevel (before : Nat → Nat → Bool) : List Nat → Nat
  | [] => 0
  | l :: ls => ls.foldl (fun b k => if before k b then k else b) l

/-- The level in use with the smallest |val(L)|, the lower on a tie. -/
def zeroLevel (c f : Nat) (s : State) : Nat :=
  bestLevel (fun k b => dyLt (dyAbs (levelVal c f s k)) (dyAbs (levelVal c f s b))) (fmtLevels c f s)

/-- rne(m / vmax × 2^(134 − es)) of R417, for vmax = v × 2^e and v > 0. -/
def scaleAt (m : Dy) (v : Nat) (e : Int) (es : Nat) : Int :=
  let sh := m.e - e + 134 - es
  if 0 ≤ sh then rneDiv (m.m * (2 ^ sh.toNat : Nat)) v else rneDiv m.m (v * 2 ^ (-sh).toNat)

/-- ms and es of a column of R417; `free` where the rule gives none: every level's value is 0, or the largest weight is beyond every
es. -/
def colScale (ws : List Dy) (c f free : Nat) (s : State) : Nat × Nat :=
  let m := ws.foldl (fun a w => if dyLt a (dyAbs w) then dyAbs w else a) ⟨0, 0⟩
  let vmax := ((fmtLevels c f s).map (fun l => dyAbs (levelVal c f s l))).foldl (fun a v => if dyLt a v then v else a) ⟨0, 0⟩
  if m.m = 0 then (0, 0)
  else if vmax.m = 0 then (free % 256, free / 256 % 256)
  else match (List.range 256).find? (fun es => decide (scaleAt m vmax.m.natAbs vmax.e es ≤ 127)) with
    | some es => ((scaleAt m vmax.m.natAbs vmax.e es).toNat, es)
    | none => (free % 256, free / 256 % 256)

/-- The level that a weight takes under a column's rounded scale (R417). -/
def quantLevel (w : Dy) (ms es c f : Nat) (s : State) : Nat :=
  let sq : Dy := ⟨sx 8 ms, (es : Int) - 134⟩
  let err (l : Nat) : Dy := dyAbs (dyAdd w (let p := dyMul sq (levelVal c f s l); ⟨-p.m, p.e⟩))
  let mag (l : Nat) : Dy := dyAbs (levelVal c f s l)
  bestLevel (fun k b => dyLt (err k) (err b) || (dyLe (err k) (err b) && dyLt (mag k) (mag b))) (fmtLevels c f s)

-- A tile's record (R417–R420, R422) --------------------------------------------------------------------------------------------------

/-- A column of a tile: the levels of its 128 rows and its S16. -/
structure TileCol where
  levels : List Nat
  s16    : Nat

/-- Column n of tile row tk (R417, R418, R420); none where its content fails the load (NaN, infinity, a code beyond the levels). -/
def tileCol (a : Nat) (t : Tile) (n : Nat) (s : State) : Option TileCol :=
  let e := tenAt a t.ten s
  let z := zeroLevel t.clu e.fmt s
  let rows := (List.range 128).filter (fun r => 128 * t.tk + r < e.k)
  let pad (l : List Nat) : List Nat := l ++ List.replicate (128 - l.length) z
  if e.n ≤ n then some { levels := List.replicate 128 z, s16 := 0 }
  else
    let codes := rows.map (fun r => elemCode a t.ten ((128 * t.tk + r) * e.n + n) s)
    if e.packed then
      let lv := fmtLevels t.clu e.fmt s
      if codes.any (fun v => decide (lv.length ≤ v)) then none
      else some { levels := pad (codes.map (fun v => nth 0 lv v)), s16 := elemCode a e.scale (t.tk * e.n + n) s }
    else match codes.mapM (elemVal e.form) with
      | none => none
      | some ws =>
        let (ms, es) := colScale ws t.clu e.fmt (Config.freeWord (s.free + n % 128)).toNat s
        some { levels := pad (ws.map (fun w => quantLevel w ms es t.clu e.fmt s)), s16 := es * 256 + ms }

/-- EB and the biases of a tile's columns (R419); none for a NaN or an infinity. -/
def tileBias (a : Nat) (t : Tile) (s : State) : Option (Nat × List Int) :=
  let e := tenAt a t.ten s
  if t.tk ≠ 0 ∨ e.bias = mfNone then some (127, List.replicate 128 0)
  else
    let cols := (List.range 128).map (fun i => 128 * t.tn + i)
    let form := (tenAt a e.bias s).form
    match cols.mapM (fun n => if e.n ≤ n then some (⟨0, 0⟩ : Dy) else elemVal form (elemCode a e.bias n s)) with
    | none => none
    | some bs =>
      let at_ (E : Nat) : List Int := bs.map (fun b => shiftRne b.m (b.e + 127 - (E : Int)))
      let E := (firstExp 0 (fun E => (at_ E).all (fun v => decide (v.natAbs ≤ 8388607)))).getD 255
      some (E, at_ E)

/-- The levels that a packed form needs (R418). -/
def formLevels (form : Nat) : Nat := nth 0 [4, 3, 2] form

/-- The bytes of one row of a record (R422). -/
def rowBytes (r : Row) : List Byte :=
  (List.range 34).map (fun i => BitVec.ofNat 8 (sumN ((List.range 4).map (fun j => nth 0 r.levels (4 * i + j) * 4 ^ j)))) ++
    (r.res.map (fun e => BitVec.ofNat 8 (tc 8 e))) ++ List.replicate 26 0

/-- The checksum level q and residue e of a row of data levels, with the reference levels (R74, R420). -/
def recordRow (cols : List TileCol) (r : Nat) : Row := rowOfData (cols.map (fun c => nth 0 c.levels r))

/-- The 8,864 bytes of a tile's record (R422); none where the content fails. -/
def recordOf (a : Nat) (t : Tile) (s : State) : Option (List Byte) :=
  match ((List.range 128).mapM (fun i => tileCol a t (128 * t.tn + i) s)), tileBias a t s with
  | some cols, some (eb, bs) =>
    some ((List.range 128).flatMap (fun r => rowBytes (recordRow cols r)) ++ cols.flatMap (fun c => leBytes 2 c.s16) ++
      bs.flatMap (fun b => leBytes 3 (tc 24 b)) ++ leBytes 1 eb ++ leBytes 1 (tenAt a t.ten s).fmt ++ leBytes 30 0)
  | _, _ => none

-- Tolerances (R190, R191, R427) ----------------------------------------------------------------------------------------------------------

/-- The least root whose square reaches n. -/
def ceilSqrt (n : Nat) : Nat := let r := isqrt n (bitLen n / 2 + 1) 0; if r * r = n then r else r + 1

/-- n divided by d, rounded up. -/
def ceilDiv (n d : Nat) : Nat := (n + d - 1) / d

/-- max over g of Σ_r |e_r[g]| of a plane (R190). -/
def maxRes (pl : Plane) : Nat :=
  ((List.range 4).map (fun g => sumN ((List.range 128).map (fun r => (nth 0 (SMap.get Row.empty pl.rows r).res g).natAbs)))).foldl max 0

/-- T in quarter-LSB at a range code (R191): ceil(24 × σ_c × √(1,056 P) + 4 × G × XB), in units of 10^-4. -/
def tolT (pl : Plane) (a8 : Bool) (k : Nat) : Nat :=
  let sc := nth 12 [33, 37, 12, 12] k
  let P := if a8 then 21845 else 85
  let n := (24 * sc * 100) ^ 2 * 1056 * P
  let b := 15 * 2 ^ k * (if a8 then 128 else 8) * maxRes pl
  min 65535 (ceilDiv (ceilSqrt n + b) 10000)

/-- REFTOL at a range code (R190), in units of 10^-4 LSB. -/
def tolRef (a8 : Bool) (k : Nat) : Nat :=
  let W := if a8 then 255 else 15
  let P := if a8 then 21845 else 85
  let b := ((if k < 2 then 5000 else 0) + 1905) * W
  min 255 (ceilDiv (b + ceilSqrt (4800 ^ 2 * P)) 10000)

/-- Write a plane's tolerances for the given range codes: the largest of each (R190, R191). -/
def setTols (c slot p : Nat) (a8 : Bool) (ks : List Nat) (s : State) : State :=
  let pl := (unitAt c slot s).plane p
  let t := (ks.map (tolT pl a8)).foldl max 0
  let r := (ks.map (tolRef a8)).foldl max 0
  wf (.unit c slot) (0x810 + 4 * p) 23 16 r (wf (.unit c slot) (0x810 + 4 * p) 15 0 t s)

end Sys2Proof.Machine
end

