-- ==== Sys2Proof/Machine/Zstd.lean ====
section
/-! DEFINITION. Zstandard frames as R11 and R416 limit them (RFC 8878): frame headers, skippable frames, block headers and the content
checksum. What a compressed block regenerates is Config.zstdBlock (log entry 8). -/

namespace Sys2Proof.Machine

/-- The two primes of XXH64's accumulator steps, and the three of its ends. -/
def xxP1 : Nat := 0x9E3779B185EBCA87
/-- See `xxP1`. -/
def xxP2 : Nat := 0xC2B2AE3D27D4EB4F
/-- See `xxP1`. -/
def xxP3 : Nat := 0x165667B19E3779F9
/-- See `xxP1`. -/
def xxP4 : Nat := 0x85EBCA77C2B2AE63
/-- See `xxP1`. -/
def xxP5 : Nat := 0x27D4EB2F165667C5

/-- A 64-bit number turned up by n places, 0 < n < 64. -/
def xxTurn (v n : Nat) : Nat := v % 2 ^ (64 - n) * 2 ^ n + v / 2 ^ (64 - n)

/-- One word taken into an accumulator. -/
def xxRound (acc w : Nat) : Nat := xxTurn ((acc + w * xxP2) % 2 ^ 64) 31 * xxP1 % 2 ^ 64

/-- The four accumulators over a stripe of 32 bytes. -/
def xxStripe (v : List Nat) (b : List Byte) : List Nat :=
  v.zipIdx.map (fun p => xxRound p.1 (leAt b (8 * p.2) 8))

/-- The accumulators joined. -/
def xxMerge (v : List Nat) : Nat :=
  let h := (xxTurn (nth 0 v 0) 1 + xxTurn (nth 0 v 1) 7 + xxTurn (nth 0 v 2) 12 + xxTurn (nth 0 v 3) 18) % 2 ^ 64
  v.foldl (fun h w => (Nat.xor h (xxRound 0 w) * xxP1 + xxP4) % 2 ^ 64) h

/-- The bytes after the last stripe: words of eight, then of four, then single ones; `fuel` bounds them. -/
def xxTail : Nat → Nat → List Byte → Nat
  | 0, h, _ => h
  | fuel + 1, h, b =>
    if 8 ≤ b.length then
      xxTail fuel ((xxTurn (Nat.xor h (xxRound 0 (leAt b 0 8))) 27 * xxP1 + xxP4) % 2 ^ 64) (b.drop 8)
    else if 4 ≤ b.length then
      xxTail fuel ((xxTurn (Nat.xor h (leAt b 0 4 * xxP1 % 2 ^ 64)) 23 * xxP2 + xxP3) % 2 ^ 64) (b.drop 4)
    else
      match b with
      | [] => h
      | x :: r => xxTail fuel (xxTurn (Nat.xor h (x.toNat * xxP5 % 2 ^ 64)) 11 * xxP1 % 2 ^ 64) r

/-- XXH64 with seed 0. -/
def xxh64 (m : List Byte) : Nat :=
  let n := m.length / 32 * 32
  let start := [(xxP1 + xxP2) % 2 ^ 64, xxP2, 0, 2 ^ 64 - xxP1]
  let h := if n = 0 then xxP5 else xxMerge ((chunks 32 (m.take n)).foldl xxStripe start)
  let h := xxTail m.length ((h + m.length) % 2 ^ 64) (m.drop n)
  let h := Nat.xor h (h / 2 ^ 33) * xxP2 % 2 ^ 64
  let h := Nat.xor h (h / 2 ^ 29) * xxP3 % 2 ^ 64
  Nat.xor h (h / 2 ^ 32)

/-- A frame header: its length in bytes from the magic number, the window, the content size where given, the dictionary's identity, and
whether a checksum of the content follows the blocks. -/
structure ZHead where
  len : Nat
  window : Nat
  content : Option Nat
  dict : Nat
  sum : Bool
  deriving DecidableEq, Repr

/-- The header of a frame whose magic number has matched; none where its reserved bit is set or its bytes are missing. -/
def zHead (b : List Byte) : Option ZHead :=
  let d := leAt b 4 1
  let single := bit d 5
  let w := leAt b 5 1
  let at_ := if single then 5 else 6
  let dl := nth 0 [0, 1, 2, 4] (fld d 1 0)
  let cl := nth 0 [b2n single, 2, 4, 8] (fld d 7 6)
  let c := leAt b (at_ + dl) cl + (if cl = 2 then 256 else 0)
  let base := 2 ^ (10 + fld w 7 3)
  if bit d 3 ∨ b.length < at_ + dl + cl then none
  else some { len := at_ + dl + cl, window := if single then c else base + base / 8 * fld w 2 0,
              content := if cl = 0 then none else some c, dict := leAt b at_ dl, sum := bit d 2 }

/-- The blocks of a frame from offset i of its bytes: what they regenerate and the offset after the last one. A block of a reserved type,
above the block maximum of min(window, 128 KiB), or cut short ends the frame as invalid. `fuel` bounds the blocks. -/
def zBlocks (win : Nat) (frame : List Byte) : Nat → Nat → List Byte → Option (List Byte × Nat)
  | 0, _, _ => none
  | fuel + 1, i, out =>
    let h := leAt frame i 3
    let n := h / 8
    let kind := fld h 2 1
    let used := if kind = 1 then 1 else n
    let body := slice frame (i + 3) used
    let got : Option (List Byte) :=
      if kind = 0 then some body
      else if kind = 1 then some (List.replicate n (nth 0 body 0))
      else if kind = 2 then Config.zstdBlock (frame.take i) body
      else none
    if frame.length < i + 3 + used ∨ kind = 3 ∨ min win 131072 < n then none
    else match got with
      | none => none
      | some g =>
        if min win 131072 < g.length then none
        else if bit h 0 then some (out ++ g, i + 3 + used)
        else zBlocks win frame fuel (i + 3 + used) (out ++ g)

/-- One frame with R11's limits: a window of at most 8 MiB, no dictionary, and the checksum verified where present. -/
def zFrame (b : List Byte) : Option (List Byte × Nat) :=
  match zHead b with
  | none => none
  | some h =>
    if h.dict ≠ 0 ∨ 2 ^ 23 < h.window then none
    else match zBlocks h.window b b.length h.len [] with
      | none => none
      | some (out, i) =>
        if h.content.getD out.length ≠ out.length then none
        else if !h.sum then some (out, i)
        else if b.length < i + 4 ∨ leAt b i 4 ≠ xxh64 out % 2 ^ 32 then none
        else some (out, i + 4)

/-- The frames of a shard one after another, skippable frames ignored (R11); `fuel` bounds them. -/
def zFrames : Nat → List Byte → List Byte → Option (List Byte)
  | 0, _, _ => none
  | fuel + 1, b, out =>
    if b.isEmpty then some out
    else
      let magic := leAt b 0 4
      if b.length < 4 then none
      else if magic / 16 = 0x184D2A5 then
        let n := 8 + leAt b 4 4
        if b.length < n then none else zFrames fuel (b.drop n) out
      else if magic ≠ 0xFD2FB528 then none
      else match zFrame b with
        | none => none
        | some (o, n) => zFrames fuel (b.drop n) (out ++ o)

/-- What a zstd shard decompresses to; none where it is not valid within R11 (R416). -/
def zstd (b : List Byte) : Option (List Byte) := if b.isEmpty then none else zFrames (b.length + 1) b []

end Sys2Proof.Machine
end

