-- ==== Sys2Proof/Machine/Load.lean ====
section
/-! DEFINITION. The loader (R404–R432): its commands and states, fetching shards, tile records, check reads and the commit,
with the programming pulses whose failures it handles (R82, R83, R425) and the shard service (R412, R413, R481). -/

namespace Sys2Proof.Machine

-- States, claims and failures (R406–R409, R429) ---------------------------------------------------------------------------------

/-- SFS_LDSTAT.STATE: 0 IDLE, 1 CHECKMAN, 2 CLAIM, 3 LOADING, 4 CHECKING, 5 COMMIT, 6 DONE, 7 FAILED (R407). -/
def ldState (s : State) : Nat := rf pgSfs 0x114 2 0 s
def setLd (n : Nat) (s : State) : State := wf pgSfs 0x114 2 0 n s

/-- Whether shards are fetched and records sent: LOADING, and CHECKING while a unit-plane is retried (R406, R425). -/
def ldBusy (s : State) : Bool := decide (ldState s = 3 ∨ ldState s = 4)

/-- Change the loader. -/
def updLd (f : Loader → Loader) (s : State) : State := { s with ld := f s.ld }

/-- Cluster, logical unit and plane of a unit-plane's key. -/
def keyClu (k : Nat) : Nat := k / 128
def keyUnit (k : Nat) : Nat := k / 2 % 64
def keyPlane (k : Nat) : Nat := k % 2

/-- Key of a tile's unit-plane: its own plane under JOIN, otherwise the load's (R403). -/
def tileKey (t : Tile) (s : State) : Nat := upKey t.clu t.unit (if mJoin s.ld.man s then t.plane % 2 else s.ld.plane)

/-- Number of the tile of a unit-plane; 0 where there is none. -/
def tileOfKey (k : Nat) (s : State) : Nat := (firstBelow (nTile s.ld.man s) (fun i => decide (tileKey (tileAt s.ld.man i s) s = k))).getD 0

/-- A record that holds a unit-plane no longer has all of them RESIDENT (R432). -/
def markPartial (key : Nat) (s : State) : State :=
  match recOf key s with
  | none => s
  | some n => updRes n (fun r => if r.st = 1 then { r with st := 2 } else r) s

/-- A failed load invalidates a unit-plane it claimed (R429): it becomes BLANK, with its row in progress completed first. -/
def blankClaim (s : State) (k : Nat) : State :=
  match physOf (keyClu k) (keyUnit k) s with
  | none => s
  | some slot =>
    let s := markPartial k s
    let y := (unitAt (keyClu k) slot s).plane (keyPlane k)
    if y.st = .programming ∧ y.kind = .load ∧ rowOpen y then updPlane (keyClu k) slot (keyPlane k) (fun y => { y with yields := true }) s
    else updPlane (keyClu k) slot (keyPlane k) (fun y => { y with st := .blank, goal := [], pulses := 0, yields := false })
      (leaveSlot (keyClu k) slot (keyPlane k) s)

/-- The load ends in FAILED with a code and the index of what failed (R406–R408, R429). -/
def loadFail (code det : Nat) (s : State) : State :=
  let l := s.ld
  let held := decide (2 ≤ ldState s)
  let n := rf pgSfs 0x114 19 12 s
  let s := l.claims.foldl blankClaim s
  let s := if !held then s else updRes n (fun r => if l.mode = 2 then { r with st := 2 } else ResRec.free) s
  let s := wr pgSfs 0x118 (word det) (wf pgSfs 0x114 31 24 code (wb pgSfs 0x114 4 false s))
  fire 77 (setLd 7 (updLd (fun l => { l with claims := [], shard := none, due := [], subs := [], buf := [], raw := [], copies := [] }) s))

-- Commands (R404) -----------------------------------------------------------------------------------------------------------------------

/-- Whether a ROW load's ports are refused (R404). -/
def rowPortsBad (up down : Nat) : Bool := decide ((5 ≤ up ∧ up ≤ 14) ∨ (5 ≤ down ∧ down ≤ 14) ∨ (up = down ∧ up ≠ 15))

/-- A pair of SFS0 registers as a stack address (R405). -/
def sfsAddr (off : Nat) (s : State) : Nat := (rd pgSfs off s).toNat + 2 ^ 32 * rf pgSfs (off + 4) 7 0 s

/-- OP LOAD (R404, R409): accepted in IDLE. -/
def loadWrite (mode plane up down : Nat) (s : State) : State :=
  if ldState s ≠ 0 ∨ mode = 3 ∨ plane = 3 ∨ (mode = 1 ∧ rowPortsBad up down) then recordErr pgSfs errOPIGN s
  else
    let s := wr pgSfs 0x124 0 (wr pgSfs 0x120 0 (wr pgSfs 0x11C 0 s))
    let l := s.ld
    setLd 1 { s with ld := { Loader.idle with
      man := sfsAddr 0x104 s, relay := sfsAddr 0x10C s, mode := mode, auto := plane, plane := plane % 2, up := up, down := down,
      lastMan := l.lastMan, lastRelay := l.lastRelay, lastDigest := l.lastDigest, lastHeld := l.lastHeld } }

/-- LOAD (R404, R406). -/
def execLoad (q : Requester) (mode plane up down : Nat) (s : State) : Host.Outcome State Fault Refusal :=
  .next (guardWrite q pgSfs 0x100 (loadWrite (mode % 4) (plane % 4) (up % 16) (down % 16)) s)

/-- OP ABORT (R404, R408): from CHECKMAN to CHECKING. -/
def loadAbortWrite (s : State) : State := if 1 ≤ ldState s ∧ ldState s ≤ 4 then loadFail 0x0A 0 s else recordErr pgSfs errOPIGN s

/-- LOAD_ABORT. -/
def execLoadAbort (q : Requester) (s : State) : Host.Outcome State Fault Refusal := .next (guardWrite q pgSfs 0x100 loadAbortWrite s)

/-- OP ACK (R404): DONE or FAILED returns to IDLE. -/
def loadAckWrite (s : State) : State := if 6 ≤ ldState s then setLd 0 s else recordErr pgSfs errOPIGN s

/-- LOAD_ACK. -/
def execLoadAck (q : Requester) (s : State) : Host.Outcome State Fault Refusal := .next (guardWrite q pgSfs 0x100 loadAckWrite s)

-- CHECKMAN and CLAIM (R406, R424, R439, R440) --------------------------------------------------------------------------------------------

/-- MANIFEST_CHECK_COMPLETE (R406, R432): the load fails, or takes a residency record and enters CLAIM. -/
def execManifestCheckComplete (s : State) : Host.Outcome State Fault Refusal :=
  if ldState s ≠ 1 then .next s
  else match mfCheck s.ld s with
    | some f => .next (loadFail f.code f.index s)
    | none =>
      let a := s.ld.man
      let digest := mDigest a s
      let found := if s.ld.mode = 2 then repairRec digest s else firstBelow 256 (fun n => decide ((SMap.get ResRec.free s.resrecs n).st = 0))
      match found with
      | none => .next (loadFail 0x0B 0 s)
      | some n =>
        let fresh : ResRec := { st := 3, join := mJoin a s, plane := 0, digest := digest, rect := (List.range 4).map (fun i => mRect a i s),
                                members := [], time := 0 }
        let s := updRes n (fun r => if s.ld.mode = 2 then { r with st := 3 } else fresh) s
        .next (setLd 2 (wf pgSfs 0x114 19 12 n (updLd (fun l => { l with digest := digest }) s)))

/-- Tiles that the load writes: under REPAIR, those not RESIDENT under the record (R439). `p` is the plane of a load without JOIN. -/
def targets (p : Nat) (s : State) : List (Nat × Nat × Nat) :=
  let a := s.ld.man
  let all := (tilesOf a s).map (fun t => (t.clu, t.unit, if mJoin a s then t.plane % 2 else p))
  if s.ld.mode ≠ 2 then all
  else all.filter (fun (c, u, p) => !(decide (recOf (upKey c u p) s = some (rf pgSfs 0x114 19 12 s)) && (match physOf c u s with
    | none => false
    | some k => decide (((unitAt c k s).plane p).st = .resident))))

/-- Whether a target is fenced with no spare in its place, or its cluster is (R408). -/
def targetFenced (c u : Nat) (s : State) : Bool :=
  (cluAt c s).fenced || (rgnAt (regionOf c) s).fenced || (match physOf c u s with
    | none => true
    | some k => (unitAt c k s).fenced)

/-- Whether a target unit-plane is released (R424). -/
def targetFree (t : Nat × Nat × Nat) (s : State) : Bool :=
  match physOf t.1 t.2.1 s with
  | none => false
  | some k => !planeHeld t.1 k t.2.2 s

/-- UNIT_WEAR of plane p summed over the targets (R440). -/
def targetWear (p : Nat) (s : State) : Nat :=
  sumN ((targets p s).map (fun (c, u, _) => match physOf c u s with
    | none => 0
    | some k => (rd (.unit c k) (0x834 + 4 * p) s).toNat))

/-- The plane of a load, once every target is released there (R424, R440). -/
def claimPlane (s : State) : Option Nat :=
  let ok (p : Nat) : Bool := (targets p s).all (fun t => targetFree t s)
  if s.ld.auto = 2 ∧ !mJoin s.ld.man s then
    match ok 0, ok 1 with
    | true, true => some (if targetWear 1 s < targetWear 0 s then 1 else 0)
    | true, false => some 0
    | false, true => some 1
    | false, false => none
  else if ok s.ld.plane then some s.ld.plane else none

/-- A refresh of a claimed plane ends (R188): at once between two rows, otherwise with its row. -/
def endRefresh (c k p : Nat) (s : State) : State :=
  let y := (unitAt c k s).plane p
  if y.st = .programming ∧ y.paused.isNone ∧ rowOpen y then updPlane c k p (fun y => { y with yields := true }) s
  else
    updPlane c k p (fun y => { y with st := if y.st = .programming ∨ y.st = .checking then .blank else y.st, paused := none, yields := false })
      (refreshOver c k p (leaveSlot c k p s))

/-- Claim one target: a refresh of it ends, JOIN follows the manifest, and a plane that leaves a joined pair leaves its record PARTIAL
(R188, R424). A spare that stands in for a refresh of the unit is no longer sent back by the refresh, since the load goes to it (DESIGN CHOICE,
entry 96). -/
def claimOne (join : Bool) (s : State) (t : Nat × Nat × Nat) : State :=
  let (c, u, p) := t
  match physOf c u s with
  | none => s
  | some k =>
    let s := endRefresh c k p s
    let s := updPlane c k p (fun y => { y with goal := if y.yields ∧ y.kind = .load then y.goal else [], retried := false }) s
    let s := if k < 64 then s else updClu c (fun cl => { cl with refr := cl.refr.filter (· ≠ k - 64) }) s
    let s := if rb (.unit c k) 0x80C 0 s ∧ !join then markPartial (upKey c u (1 - p)) s else s
    wb (.unit c k) 0x80C 0 join s

-- Fetching (R411–R415) ------------------------------------------------------------------------------------------------------------------------

/-- A shard's sources in the order they are tried (R411). -/
def shardSrcs (i : Nat) (s : State) : List Src :=
  let l := s.ld
  let x := shardAt l.man i s
  let all := (x.srcs.take x.nsrc).map (fun j => srcAt l.man j s)
  (if l.mode = 1 ∧ l.up ≠ 15 then [{ kind := 0, port := l.up, ep := 0, addr := 0, obj := [] }] else []) ++
    all.filter (·.kind = 0) ++ all.filter (·.kind = 1) ++ all.filter (·.kind = 2)

/-- The source being tried. -/
def curSrc (i : Nat) (s : State) : Option Src := let l := shardSrcs i s; l[s.ld.turn % l.length]?

/-- The peer of a storage endpoint: a valid STORAGE entry with its address and UDP port (R402, R481, R493). -/
def storagePeer (ep : Nat) (s : State) : Option Nat :=
  let want := memRead (s.ld.man + mOff s.ld.man 4 s + 32 * ep) 18 s
  firstBelow 4096 (fun k => peerValid k s && peerStorage k s &&
    (((List.range 5).flatMap (fun i => leBytes 4 (peerWord k i s).toNat)).take 18 == want))

/-- The port code that a source's bytes come by; none for a stack, or a storage service without a peer. -/
def srcPort (x : Src) (s : State) : Option Nat :=
  match x.kind with
  | 0 => some x.port
  | 1 => none
  | _ => (storagePeer x.ep s).map (fun k => 5 + peerPort k s)

/-- Engine that processes shard i from a source (R415). -/
def engineOf (i : Nat) (x : Src) (s : State) : Nat :=
  match srcPort x s with
  | some p => if 5 ≤ p then p - 5 else nth 0 [2, 6, 4, 0, 4] p + i % 2
  | none => 2 * (((placeOf x.addr s).map (·.1)).getD 0 / 5) + i % 2

/-- The body of a SHREQ (R457). -/
def shreqBody (i : Nat) (x : Src) (s : State) : List Byte :=
  s.ld.digest.take 16 ++ leBytes 4 i ++ leBytes 8 0 ++ leBytes 8 x.addr ++ slice x.obj 0 16

/-- Ask the current source for the shard from byte 0 (R411, R412, R414). -/
def fetchAsk (s : State) : State :=
  match s.ld.shard with
  | none => s
  | some i =>
    let s := updLd (fun l => { l with buf := [], since := now s }) s
    match curSrc i s with
    | none => s
    | some x =>
      let f := nearFlit ftShreq 2 (slice (shreqBody i x s) 0 608) s
      match x.kind with
      | 0 => sendFlit x.port f s
      | 1 => s
      | _ => match storagePeer x.ep s with
        | none => s
        | some k => sdtQueue (peerPort k s) k 0 f s

/-- Whether a shard is still to be fetched: in modes SHARD and ROW every one, in REPAIR those of the bands due (R413, R439). -/
def shardDue (i : Nat) (s : State) : Bool :=
  let l := s.ld
  (SMap.get [] l.raw i).isEmpty && (decide (l.mode ≠ 2) || l.due.any (fun k =>
    let t := tileAt l.man (tileOfKey k s) s; shardInBand l.man i t.ten t.tk s))

/-- Fetch the next shard that is due. -/
def fetchNext (s : State) : State :=
  match firstBelow (nShard s.ld.man s) (fun i => shardDue i s) with
  | none => updLd (fun l => { l with shard := none, buf := [] }) s
  | some i => fetchAsk (updLd (fun l => { l with shard := some i, turn := 0, waits := 0 }) s)

/-- CLAIM_COMPLETE (R406, R424): a fenced target fails the load; until every target is released the load waits; then it claims them and
fetches. -/
def execClaimComplete (s : State) : Host.Outcome State Fault Refusal :=
  if ldState s ≠ 2 then .next s
  else match (targets s.ld.plane s).find? (fun t => targetFenced t.1 t.2.1 s) with
    | some (c, u, p) => .next (loadFail 0x0C (tileOfKey (upKey c u p) s) s)
    | none => match claimPlane s with
      | none => .next (wb pgSfs 0x114 4 true s)
      | some p =>
        let ts := targets p s
        let join := mJoin s.ld.man s
        let keys := ts.map (fun (c, u, p) => upKey c u p)
        let s := ts.foldl (claimOne join) (setLd 3 (wb pgSfs 0x114 4 false s))
        let s := updRes (rf pgSfs 0x114 19 12 s) (fun r => if s.ld.mode = 2 then r else { r with plane := if join then 0 else p }) s
        .next (fetchNext (updLd (fun l => { l with plane := p, claims := keys, due := keys }) s))

/-- Move to the next source; after ROUNDS passes through the list the load fails (R411). -/
def nextSource (s : State) : State :=
  match s.ld.shard with
  | none => s
  | some i =>
    let t := s.ld.turn + 1
    if rf pgSfs 0x128 27 24 s * (shardSrcs i s).length ≤ t then loadFail 0x06 i s
    else fetchAsk (updLd (fun l => { l with turn := t }) s)

/-- A source that times out or refuses (R409, R411). -/
def sourceGone (s : State) : State := nextSource (bump pgSfs 0x124 15 0 1 s)

/-- Where shard i lies in the relay area (R413). -/
def relayOff (a i : Nat) (s : State) : Nat := sumN ((List.range i).map (fun j => (shardAt a j s).stored))

/-- A whole shard has arrived (R409, R411, R413, R416): its digest is checked, it is decompressed, and in ROW mode written to the relay
area. -/
def shardDone (i : Nat) (s : State) : State :=
  let l := s.ld
  let x := shardAt l.man i s
  let data := l.buf.take x.stored
  if sha3 data ≠ shDigest l.man i s then
    let s := match curSrc i s with
      | some src => bump (.die (0xC0 + engineOf i src s)) 0x200 31 16 1 s
      | none => s
    nextSource (bump pgSfs 0x124 31 16 1 s)
  else
    let s := countDie 0xC0 0 1 (bump pgSfs 0x11C 31 0 1 s)
    match (if x.enc = 0 then some data else zstd data) with
    | none => loadFail 0x07 i s
    | some raw =>
      if raw.length ≠ x.raw then loadFail 0x07 i s
      else
        let s := if l.mode = 1 then stackWrite (l.relay + relayOff l.man i s) data s else s
        fetchNext (updLd (fun l => { l with raw := SMap.set [] l.raw i raw }) s)

/-- Take bytes of the shard being fetched. -/
def shardTake (i : Nat) (bytes : List Byte) (s : State) : State :=
  let s := updLd (fun l => { l with buf := l.buf ++ bytes, since := now s }) s
  if (shardAt s.ld.man i s).stored ≤ s.ld.buf.length then shardDone i s else s

/-- An arrival after its timer has won is late: discarded, and counted (R602, R627; log entry 120). -/
def lateArrival (s : State) : State := bump pgClk 0x10C 31 0 1 s

/-- SHARD_BYTES (R411, R414): bytes from the source in turn, by its place in the shard's list; those of a stack are what memory holds. A
fenced stack refuses. Bytes of any other source come after its timeout and are discarded. -/
def execShardBytes (source : Nat) (bytes : List Byte) (s : State) : Host.Outcome State Fault Refusal :=
  match s.ld.shard with
  | none => .next s
  | some i =>
    match curSrc i s with
    | none => .next s
    | some x =>
      if !ldBusy s ∨ bytes.isEmpty then .next s
      else if source ≠ s.ld.turn % (shardSrcs i s).length then .next (lateArrival s)
      else if x.kind ≠ 1 then .next (shardTake i bytes s)
      else
        let a := x.addr + s.ld.buf.length
        if rangeFenced a bytes.length s then .next (sourceGone s) else .next (shardTake i (memRead a bytes.length s) s)

/-- SHARD_FETCH_TIMEOUT (R410, R411): no first byte within TFIRST, or a gap longer than TGAP. -/
def execShardFetchTimeout (s : State) : Host.Outcome State Fault Refusal :=
  let l := s.ld
  let first := l.buf.isEmpty
  let limit := if first then 10000 * rf pgSfs 0x128 23 12 s else 1000 * rf pgSfs 0x128 11 0 s
  if !ldBusy s ∨ l.shard.isNone ∨ (if first then now s < l.since + limit else now s ≤ l.since + limit) then .next s
  else .next (sourceGone s)

-- Bands and records (R416–R423, R425) ------------------------------------------------------------------------------------------------------------

/-- Send one message of a tile record: SYS 1, ADDR with 0xFC, unit, plane and offset (R423). -/
def recordMsg (k off : Nat) (data : List Byte) (s : State) : State :=
  sayBytes .memReq [1, keyClu k, 0xFC * 2 ^ 32 + keyUnit k * 2 ^ 26 + keyPlane k * 2 ^ 25 + off, (data.length + 31) / 32, 1] data s

/-- Send a unit-plane's record in messages of 30 sectors (R383, R422, R423). -/
def sendRecord (k : Nat) (data : List Byte) (s : State) : State :=
  countDie 0xC1 0 1 ((chunks 960 data).zipIdx.foldl (fun s (b, i) => recordMsg k (960 * i) b s) s)

/-- Whether a unit-plane's record may be sent now: one that waits for its spare, once that serves (R425). -/
def recordMay (k : Nat) (s : State) : Bool :=
  !s.ld.subs.contains k || (match physOf (keyClu k) (keyUnit k) s with
    | none => false
    | some n => decide (64 ≤ n))

/-- Process one tile of a band (R416–R420): its content is checked and its record sent. -/
def tileProcess (i : Nat) (s : State) : State :=
  let a := s.ld.man
  let t := tileAt a i s
  let e := tenAt a t.ten s
  let k := tileKey t s
  if e.packed ∧ (fmtLevels t.clu e.fmt s).length < formLevels e.form then loadFail 0x05 i s
  else match recordOf a t s with
    | none => loadFail 0x08 i s
    | some data =>
      let s := updLd (fun l => { l with due := l.due.filter (· ≠ k), subs := l.subs.filter (· ≠ k),
                                        resent := l.resent.filter (fun e => e.1 / 16 ≠ k) }) s
      sendRecord k data { s with free := s.free + 128 }

/-- BAND_PROCESS (R416): once every byte that a band needs has verified, its tiles that are due become records. -/
def execBandProcess (tensor tk : Nat) (s : State) : Host.Outcome State Fault Refusal :=
  if !ldBusy s ∨ !bandHeld s.ld.man tensor tk s then .next s
  else
    let hit := (List.range (nTile s.ld.man s)).filter (fun i =>
      let t := tileAt s.ld.man i s
      decide (t.ten = tensor ∧ t.tk = tk) && s.ld.due.contains (tileKey t s) && recordMay (tileKey t s) s)
    .next (hit.foldl (fun s i => if ldBusy s then tileProcess i s else s) s)

/-- Fetch a unit-plane's band again for its record (R425). -/
def refetch (k : Nat) (s : State) : State :=
  let t := tileAt s.ld.man (tileOfKey k s) s
  let s := updLd (fun l => { l with
    due := k :: l.due.filter (· ≠ k),
    raw := l.raw.filter (fun e => !shardInBand l.man e.1 t.ten t.tk s) }) s
  if s.ld.shard.isNone then fetchNext s else s

/-- A unit-plane of the load is FAULTED (R425): one retry, then the IDLE spare of least wear, then the load fails. -/
def loadFault (c slot p : Nat) (s : State) : State :=
  match (unitAt c slot s).serves with
  | none => s
  | some u =>
    let k := upKey c u p
    let s := if ((unitAt c slot s).plane p).st = .programming then wf (.unit c slot) 0x830 9 9 1 s else s
    let s := updPlane c slot p (fun y => { y with st := .faulted, goal := [], pulses := 0, yields := false }) (leaveSlot c slot p s)
    if !claimed k s then s
    else if !((unitAt c slot s).plane p).retried then refetch k (updPlane c slot p (fun y => { y with retried := true }) s)
    else
      let carried := (List.range 2).filter (fun i => decide (i = p ∨ ((unitAt c slot s).plane i).st = .resident))
      match (if slot < 64 then pickSpare c carried s else none) with
      | none => loadFail 0x09 (tileOfKey k s) (wantSpare c s)
      | some n =>
        let s := updPlane c (64 + n) p (fun y => { y with retried := true }) (spareFill c slot n u [0, 1] s)
        refetch k (updLd (fun l => { l with subs := k :: l.subs.filter (· ≠ k) }) s)

/-- A spare that the running load ordered fails, and the load fails with it: PROGRAM (R425). -/
def spareFailed (c n : Nat) (s : State) : State :=
  match s.ld.subs.find? (fun k => keyClu k = c ∧ keyUnit k = rf (.clu c) (0x180 + 4 * n) 5 0 s) with
  | none => s
  | some k => if ldBusy s then loadFail 0x09 (tileOfKey k s) s else s

/-- ROW_PULSE_VERIFY (R82, R83, R186, R425): a pulse with its verify; a refreshed plane that reaches CHECKING makes its check reads, with
the conversion errors given; a plane of a spare that becomes FAULTED fails the spare (R95 order 2), and the load that ordered it. -/
def execRowPulseVerify (c slot : Nat) (verified : Bool) (misread : List (Nat × Nat)) (fetched : Option (List Byte)) (errs : List (Nat × ConvErr))
    (s : State) : Host.Outcome State Fault Refusal :=
  match pgmPlane c slot s with
  | none => .next s
  | some p =>
    let s := pulse loadFault c slot verified misread fetched s
    let y := (unitAt c slot s).plane p
    .next (if y.st = .checking ∧ y.kind = .refresh then refreshChecks c slot p errs s
      else if y.st = .faulted ∧ y.kind = .spare ∧ 64 ≤ slot then spareFailed c (slot - 64) (failSpare c (slot - 64) s) else s)

/-- SPARE_READOUT_ROW (R96): the original unit reads one row of a plane through its verify path for spare n. A row
that passes the residue test becomes the spare's row; a row that fails is fetched from the manifest's sources and comes as `fetched`. Where none of
them supplies it, the row has failed and so has the spare, with the load that
ordered it (R95 order 2, DEDUCED, entry 82).
`misread` lists columns with the level read instead. The unit must have no action in the step, or be fenced. -/
def execSpareReadoutRow (c n p row : Nat) (misread : List (Nat × Nat)) (fetched : Option (List Byte)) (s : State) : Host.Outcome State Fault Refusal :=
  let l := rf (.clu c) (0x180 + 4 * n) 5 0 s
  match physOf c l s with
  | none => .next s
  | some o =>
    let x := unitAt c o s
    if spareSt c n s ≠ 1 ∨ ((cluAt c s).acts.contains l ∧ !x.fenced) then .next s
    else
      let r := SMap.get Row.empty (x.plane p).rows row
      let hold (r : Row) (s : State) : State :=
        updPlane c (64 + n) p (fun y => { y with goal := SMap.set Row.empty y.goal row r, par := (x.plane p).par }) s
      if residueOk (readOut r.levels misread) r.res then .next (hold { r with levels := readOut r.levels misread } s)
      else
        let s := say .xfer [0x96, c, o, p, row] s
        match fetchedRow fetched with
        | some f => .next (hold f s)
        | none => .next (spareFailed c n (failSpare c n s))

/-- The check reads of a spare's planes (R95): the spare takes the tolerances of the logical unit's record, and the planes that fail come out. -/
def spareChecks (c n : Nat) (planes : List Nat) (checks : List CheckErr) (s : State) : List Nat × State :=
  let k := 64 + n
  let errs (p : Nat) := (checks.filter (fun e => e.c = c ∧ e.slot = k ∧ e.p = p)).flatMap (·.errs)
  planes.foldl (fun (a : List Nat × State) p =>
    let (ok, s) := checkReads c k p (errs p) (setTols c k p true [0] a.2)
    (if ok then a.1 else a.1 ++ [p], s)) ([], s)

/-- SPARE_LOADED (R95 orders 2 and 3, R426): every plane named is CHECKING and the loader's check reads are made; with all passed they are
RESIDENT, the spare copies the tolerances, UNIT_PLCFG and the action state of the logical unit, and is READY; otherwise it is FAULTED, the logical
unit is unchanged, and the load that ordered a spare fails with it (R425). -/
def execSpareLoaded (c n : Nat) (checks : List CheckErr) (s : State) : Host.Outcome State Fault Refusal :=
  let w := rd (.clu c) (0x180 + 4 * n) s
  let l := getF w 5 0
  let k := 64 + n
  match physOf c l s with
  | none => .next s
  | some o =>
    let planes := sparePlanes c l (getF w 13 12) s
    if getF w 18 16 ≠ 1 ∨ !(planes.all (fun p => ((unitAt c k s).plane p).st = .checking)) then .next s
    else
      let (bad, s) := spareChecks c n planes checks s
      if bad.isEmpty then
        let s := wr (.unit c k) 0x80C (rd (.unit c o) 0x80C s) s
        let s := wr (.unit c k) 0x814 (rd (.unit c o) 0x814 s) (wr (.unit c k) 0x810 (rd (.unit c o) 0x810 s) s)
        let s := planes.foldl (fun s p => logWritten (planeCommit c k p s)) s
        .next (spareNow c n (setSpareSt c n 2 s))
      else
        let s := bad.foldl (fun s p => updPlane c k p (fun y => { y with st := .faulted }) s) s
        .next (spareFailed c n (failSpare c n s))

-- Records at the cluster (R422, R423) --------------------------------------------------------------------------------------------------------------

/-- Whole rows that bytes from an offset of a record hold. -/
def rowsIn (off : Nat) (data : List Byte) : List (Nat × Row) :=
  ((List.range 128).filter (fun r => decide (off ≤ 64 * r ∧ 64 * r + 64 ≤ off + data.length))).map (fun r =>
    (r, rowFrom (slice data (64 * r - off) 64)))

/-- Element i of a list set, the list padded with a default. -/
def putAt {α : Type} (d : α) (l : List α) (i : Nat) (v : α) : List α := (l ++ List.replicate (i + 1 - l.length) d).set i v

/-- A plane's parameters with what bytes from an offset of a record hold of them (R422). -/
def parFrom (off : Nat) (data : List Byte) (p : ParamSet) : ParamSet :=
  let has (a n : Nat) : Bool := decide (off ≤ a ∧ a + n ≤ off + data.length)
  let at_ (a n : Nat) : Nat := leAt data (a - off) n
  let s16 := foldRange 128 (fun i l => if has (8192 + 2 * i) 2 then putAt 0 l i (at_ (8192 + 2 * i) 2) else l) p.s16
  let bias := foldRange 128 (fun i l => if has (8448 + 3 * i) 3 then putAt 0 l i (sx 24 (at_ (8448 + 3 * i) 3)) else l) p.bias
  { s16 := s16, bias := bias, eb := if has 8832 1 then at_ 8832 1 else p.eb }

/-- Hold a message of a record at its unit-plane, and ask for programming once a row is held (R84, R85, R425). -/
def recordHold (c slot p off : Nat) (data : List Byte) (s : State) : State :=
  let rows := rowsIn off data
  let s := updPlane c slot p (fun y => { y with goal := rows.foldl (fun m e => SMap.set Row.empty m e.1 e.2) y.goal, par := parFrom off data y.par }) s
  let s := if off ≤ 8833 ∧ 8833 < off + data.length then
    wf (.unit c slot) 0x80C (if p = 0 then 6 else 10) (if p = 0 then 4 else 8) (leAt data (8833 - off) 1 % 8) s else s
  let s := if ((unitAt c slot s).plane p).st = .programming then updPlane c slot p (fun y => { y with targets := verifyTargets c slot p s }) s else s
  let st := ((unitAt c slot s).plane p).st
  let q : PgmReq := { unit := ukey c slot, plane := p, kind := .load }
  let x := rgnAt (regionOf c) s
  if rows.isEmpty ∨ st = .programming ∨ st = .checking ∨ x.queue.contains q ∨ x.active.contains q then s
  else updRgn (regionOf c) (fun x => { x with queue := x.queue ++ [q] }) s

/-- Answer a message of a record (R386, R423). -/
def recordAns (c u p off status : Nat) (s : State) : State := say .memRsp [c, u, p, off, status] s

/-- A message answered BADREQ: sent again up to twice, then its unit-plane has failed (R423). -/
def recordBad (k slot off : Nat) (s : State) : State :=
  let m := k * 16 + off / 960 % 16
  let n := SMap.get 0 s.ld.resent m
  if n < 2 then
    let s := updLd (fun l => { l with resent := SMap.set 0 l.resent m (n + 1) }) s
    match recordOf s.ld.man (tileAt s.ld.man (tileOfKey k s) s) s with
    | none => s
    | some data => recordMsg k off ((data.drop off).take 960) s
  else loadFault (keyClu k) slot (keyPlane k) s

/-- TILE_RECORD_WRITE (R423): a message of a tile record at a unit's cluster. -/
def execTileRecordWrite (c u p off : Nat) (sys : Bool) (parity : Bool) (data : List Byte) (s : State) : Host.Outcome State Fault Refusal :=
  let k := upKey c u p
  if !sys then .next (recordAns c u p off memRANGE s)
  else if !ldBusy s ∨ !claimed k s then .next (recordAns c u p off memBADREQ s)
  else match physOf c u s with
    | none => .next (recordAns c u p off memFENCED s)
    | some slot =>
      if (unitAt c slot s).fenced then .next (recordAns c u p off memFENCED s)
      else if !parity ∨ !(rowsIn off data).all (fun e => rowHolds e.2) then .next (recordBad k slot off (recordAns c u p off memBADREQ s))
      else .next (recordAns c u p off memOK (recordHold c slot p off data s))

-- Check reads and commit (R426–R428, R687, R688) -------------------------------------------------------------------------------------------------------

/-- The claimed unit-planes with the slots that serve them. -/
def claimSlots (s : State) : List (Nat × Option Nat) := s.ld.claims.map (fun k => (k, physOf (keyClu k) (keyUnit k) s))

/-- Whether every claimed unit-plane is CHECKING (R406). -/
def allChecking (s : State) : Bool :=
  (claimSlots s).all (fun (k, o) => match o with
    | none => false
    | some n => decide (((unitAt (keyClu k) n s).plane (keyPlane k)).st = .checking))

/-- Write a unit-plane's tolerances at COMMIT from its tensor's READ (R427). -/
def commitTols (s : State) (e : Nat × Option Nat) : State :=
  match e.2 with
  | none => s
  | some n =>
    let t := tileAt s.ld.man (tileOfKey e.1 s) s
    let r := (tenAt s.ld.man t.ten s).read
    let ks := (List.range 4).filter (fun i => bit r i)
    setTols (keyClu e.1) n (keyPlane e.1) (bit r 4) (if ks.isEmpty then [0] else ks) s

/-- LOAD_CHECK (R406, R426, R427): every unit-plane is CHECKING; its tolerances are set for A8 at full range and the four reads made. When
all pass, the load enters COMMIT and writes its record; a failure is handled by R425. -/
def execLoadCheck (checks : List CheckErr) (s : State) : Host.Outcome State Fault Refusal :=
  if !ldBusy s ∨ !allChecking s then .next s
  else
    let l := claimSlots s
    let s := l.foldl (fun s e => match e.2 with
      | none => s
      | some n => setTols (keyClu e.1) n (keyPlane e.1) true [0] s) (setLd 4 s)
    let (bad, s) := l.foldl (fun (a : List (Nat × Option Nat) × State) e => match e.2 with
      | none => (a.1 ++ [e], a.2)
      | some n =>
        let (ok, s) := checkReads (keyClu e.1) n (keyPlane e.1)
          ((checks.filter (fun x => x.c = keyClu e.1 ∧ x.slot = n ∧ x.p = keyPlane e.1)).flatMap (·.errs)) a.2
        (if ok then a.1 else a.1 ++ [e], s)) ([], s)
    if bad.isEmpty then
      let s := l.foldl commitTols s
      .next (say .record [0, 0x428, rf pgSfs 0x114 19 12 s] (setLd 5 (updLd (fun l => { l with copies := [] }) s)))
    else .next (bad.foldl (fun s e => match e.2 with
      | none => s
      | some n => if ldBusy s then loadFault (keyClu e.1) n (keyPlane e.1) s else s) s)

/-- The commit takes effect (R428): every unit-plane of the load is RESIDENT, its record COMPLETE, and the load DONE. -/
def commitDone (s : State) : State :=
  let l := s.ld
  let s := (claimSlots s).foldl (fun s e => match e.2 with
    | none => s
    | some n => planeCommit (keyClu e.1) n (keyPlane e.1) s) s
  let s := updRes (rf pgSfs 0x114 19 12 s) (fun r => { r with st := 1, time := now s, members := r.members ++ l.claims.filter (fun k => !r.members.contains k) }) s
  let s := wr pgSfs 0x118 0 (wf pgSfs 0x114 31 24 0 s)
  let s := extendMeas 5 l.digest s
  fire 77 (setLd 6 (updLd (fun l => { l with
    claims := [], shard := none, copies := [], raw := [], lastMan := l.man, lastRelay := if l.mode = 1 then some l.relay else none,
    lastDigest := l.digest, lastHeld := l.raw.map (·.1) }) s))

/-- Change which copies hold the record of the load otherwise than it is in force (R687). -/
def oddCopies (f : List Nat → List Nat) (s : State) : State := updRes (rf pgSfs 0x114 19 12 s) (fun r => { r with odd := f r.odd }) s

/-- LOGBOOK_WRITE_COMPLETE (R687, R688): a copy's write ends. The commit of a load takes effect with its second copy; until then the copies written
hold another record than the one in force, and after it the others do. A copy that fails three times in succession is taken out of service. -/
def execLogbookWriteComplete (copy : Nat) (ok : Bool) (s : State) : Host.Outcome State Fault Refusal :=
  if 2 < copy ∨ !rb pgLog 0x100 copy s then .next s
  else if !ok then
    let n := SMap.get 0 s.logFails copy + 1
    let s := { s with logFails := SMap.set 0 s.logFails copy n }
    let s := if ldState s = 5 then oddCopies (fun l => copy :: l.filter (· ≠ copy)) s else s
    .next (if 3 ≤ n then wb pgLog 0x100 copy false s else s)
  else
    let s := { s with logFails := SMap.set 0 s.logFails copy 0 }
    if ldState s ≠ 5 then .next (oddCopies (fun l => l.filter (· ≠ copy)) s)
    else
      let done := copy :: s.ld.copies.filter (· ≠ copy)
      let s := updLd (fun l => { l with copies := done }) s
      .next (if done.length < 2 then oddCopies (fun l => copy :: l.filter (· ≠ copy)) s
        else commitDone (oddCopies (fun _ => (List.range 3).filter (fun c => !done.contains c)) (logWritten s)))

-- The shard service (R412, R413, R481) ---------------------------------------------------------------------------------------------------------------------

/-- Send a refusal of a shard request: 1 NOTHELD, 2 WAIT (R457). -/
def sendShref (p : Nat) (pre : List Byte) (i code : Nat) (s : State) : State :=
  sendFlit p (nearFlit ftShref 2 (slice (slice pre 0 16 ++ leBytes 4 i ++ leBytes 1 code) 0 608) s) s

/-- Send a shard's stored bytes from an offset, in order (R481). -/
def sendShard (p : Nat) (pre : List Byte) (i off addr stored : Nat) (s : State) : State :=
  foldRange ((stored - off + 575) / 576) (fun j s =>
    let o := off + 576 * j
    let n := min 576 (stored - o)
    sendFlit p (nearFlit ftShdata 0 (slice (slice pre 0 16 ++ leBytes 4 i ++ leBytes 8 o ++ leBytes 2 n ++ leBytes 2 0 ++ memRead (addr + o) n s) 0 608) s) s) s

/-- Where a manifest's shard lies on this device: a STACK source that is not fenced, or the relay area (R412, R413). -/
def shardHere (a : Nat) (relay : Option Nat) (i : Nat) (s : State) : Option Nat :=
  let x := shardAt a i s
  let l := ((x.srcs.take x.nsrc).map (fun j => srcAt a j s)).filter (fun e => e.kind = 1 && !rangeFenced e.addr x.stored s)
  match l with
  | e :: _ => some e.addr
  | [] => relay.map (fun r => r + relayOff a i s)

/-- SHREQ (R412, R413): a neighbour's request is answered with the shard's stored bytes, where a verified copy is here; with WAIT, where the
downstream neighbour of a ROW load asks for one still being fetched; otherwise with NOTHELD. -/
def execShreq (p : Nat) (prefix16 : List Byte) (shard off : Nat) (s : State) : Host.Outcome State Fault Refusal :=
  let l := s.ld
  let relay := if l.mode = 1 then some l.relay else none
  let pre := slice prefix16 0 16
  if 4 < p ∨ !portUp p s then .next s
  else if 2 ≤ ldState s ∧ ldState s ≤ 5 ∧ l.digest.take 16 = pre ∧ shard < nShard l.man s then
    if (SMap.get [] l.raw shard).isEmpty then .next (sendShref p pre shard (if l.mode = 1 ∧ l.down = p then 2 else 1) s)
    else match shardHere l.man relay shard s with
      | some a => .next (sendShard p pre shard off a (shardAt l.man shard s).stored s)
      | none => .next (sendShref p pre shard 1 s)
  else if l.lastDigest.take 16 = pre ∧ l.lastHeld.contains shard then
    match shardHere l.lastMan l.lastRelay shard s with
    | some a => .next (sendShard p pre shard off a (shardAt l.lastMan shard s).stored s)
    | none => .next (sendShref p pre shard 1 s)
  else .next (sendShref p pre shard 1 s)

/-- Whether a flit of shard i by port p answers the request in progress. -/
def answers (p i : Nat) (s : State) : Bool :=
  ldBusy s && decide (s.ld.shard = some i) && (match curSrc i s with
    | none => false
    | some x => decide (srcPort x s = some p))

/-- SHDATA (R411, R481): the next bytes of the shard being fetched; bytes out of their order or of a source that was left are discarded. -/
def execShdata (p : Nat) (shard off : Nat) (bytes : List Byte) (s : State) : Host.Outcome State Fault Refusal :=
  if !answers p shard s ∨ off ≠ s.ld.buf.length ∨ bytes.isEmpty ∨ 576 < bytes.length then .next s
  else .next (shardTake shard bytes s)

/-- SHREF (R411, R413): NOTHELD moves on to the next source; WAIT starts TFIRST again, up to 64 times for a shard. -/
def execShref (p : Nat) (shard code : Nat) (s : State) : Host.Outcome State Fault Refusal :=
  if !answers p shard s then .next s
  else if code = 1 then .next (sourceGone s)
  else if code = 2 then
    if 64 ≤ s.ld.waits then .next s else .next (updLd (fun l => { l with waits := l.waits + 1, since := now s, buf := [] }) s)
  else .next s

end Sys2Proof.Machine
end

