-- ==== Sys2Proof/Machine/Err.lean ====
section
/-! DEFINITION. Error records sent again (R526), region fences (R525) and stress tests (R516–R519). -/

namespace Sys2Proof.Machine

/-- ERROR_RECORD_RESEND (R526): every record sent a second ago or earlier and not acknowledged is sent again, in sequence order; nothing
is sent during SERVICE (R609). -/
def execErrorRecordResend (s : State) : Host.Outcome State Fault Refusal :=
  if inService s then .next s
  else
    let late (e : ErrRec) : Bool := decide (e.sentAt + second ≤ now s)
    let s1 := (s.records.filter late).foldl (fun z e => sayBytes .record [e.seq] e.bytes z) s
    .next { s1 with records := s1.records.map (fun e => if late e then { e with sentAt := now s } else e) }

-- Region fences (R525) ------------------------------------------------------------------------------------------------------------

/-- REGION_FENCE (R525 order 1): the fence bit of the RGN page's PG_CTRL is written with 1. -/
def execRegionFence (q : Requester) (r : Nat) (s : State) : Host.Outcome State Fault Refusal :=
  .next (guardWrite q (pgRgn r) 0x008 (rgnFence r) s)

/-- Give back the charge of units without a read in progress and of the regulator, in a region whose compute is to power off (R525
order 2, R613). -/
def rgnGive (r : Nat) (s : State) : State :=
  let idle := s.units.filter (fun e => decide (regionOf (e.1 / 128) = r ∧ e.2.holding ≠ 0) && e.2.cur.isNone)
  let s := idle.foldl (fun s e => giveBack (e.1 / 128) (e.1 % 128) s) s
  let q := (rgnAt r s).ivrHold
  release r q (updRgn r (fun x => { x with ivrHold := 0, ivrGrant := false }) s)

/-- Whether every cluster of a region holds at a step boundary (R525 order 2). -/
def rgnHolds (r : Nat) (s : State) : Bool :=
  s.clus.all (fun e => !(decide (regionOf e.1 = r) && e.2.busy)) && s.units.all (fun e => !(decide (regionOf (e.1 / 128) = r) && e.2.cur.isSome))

/-- Power a region off once its charge is zero (R525 order 4, R609, R654): the Stove's SRAM and the Pantries are lost, and, but for a thermal
trip of a region that is not fenced, the sense converter's queue and triggers. -/
def rgnOff (r : Nat) (s : State) : State :=
  let x := rgnAt r s
  if x.off ∨ x.charge ≠ 0 then s
  else
    let keep := tripped s && !x.fenced && !inService s
    let s := setRgn r { x with
      off := true, sram := [], poison := [], tags := [], sns := if keep then x.sns else Sns.empty, asks := [], cmds := [], active := [] } s
    let s := if keep then s else wf (pgSns r) 0x104 4 2 0 (wf (pgSns r) 0x110 7 4 0 s)
    (s.clus.filter (fun e => regionOf e.1 = r)).foldl (fun s e => setClu e.1 { e.2 with pantry := [], ring := [] } s) s

/-- REGION_POWER_OFF (R525 orders 2 to 4): a fenced region whose clusters all hold gives its charge back, and powers off when none is
left. -/
def execRegionPowerOff (r : Nat) (s : State) : Host.Outcome State Fault Refusal :=
  if !(rgnAt r s).fenced ∨ !rgnHolds r s then .next s else .next (rgnOff r (rgnGive r s))

-- Stress tests (R516–R519) --------------------------------------------------------------------------------------------------------

/-- Whether a unit may be tested now (R517). -/
def stressMay (c slot : Nat) (s : State) : Bool :=
  let x := unitAt c slot s
  rb pgDie 0x220 0 s && decide (slot < 64) && x.serves.isSome && decide (2 ≤ (idleSpares c s).length) && !x.fenced && !x.underTest &&
    !rb (.unit c slot) 0x804 0 s && decide (rungOf c slot s = 0) && decide (x.p0.st ≠ .programming ∧ x.p1.st ≠ .programming) &&
    decide ((s.stress.filter (fun t => regionOf t.c = regionOf c)).length < rf pgDie 0x220 7 4 s) &&
    !(s.stress.any (fun t => t.c = c ∧ t.slot = slot))

/-- STRESS_TEST_START (R517 phase 1): a spare of the cluster stands in for the unit. -/
def execStressTestStart (c slot : Nat) (s : State) : Host.Outcome State Fault Refusal :=
  match (unitAt c slot s).serves, idleSpares c s with
  | some l, n :: _ =>
    if !stressMay c slot s then .next s
    else
      let t : Stress := { c := c, slot := slot, spare := n, phase := 1, rail := 0, code := rf (.unit c slot) 0x818 2 0 s, wanted := false }
      .next (spareWrite c n l 2 0 { s with stress := s.stress ++ [t] })
  | _, _ => .next s

/-- The unit returns (R517 phase 6): the spare is sent back with MODE IDLE. -/
def stressReturn (t : Stress) (s : State) : State :=
  let w := rd (.clu t.c) (0x180 + 4 * t.spare) s
  spareWrite t.c t.spare (getF w 5 0) 0 (getF w 13 12) { s with stress := s.stress.erase t }

/-- The result of a test (R518): a record, the count of tests, and a failure raises SE_STRESS. DETAIL names the failing phase, 0 where
none failed. -/
def stressResult (t : Stress) (fail : Nat) (s : State) : State :=
  let s := writeRec { kind := 8, cluster := t.c, pslot := t.slot, pitch := pitchOfClu t.c s, detail := leBytes 1 fail } (bump pgDie 0x224 15 0 1 s)
  if fail = 0 then s else fire 85 (bump pgDie 0x224 31 16 1 s)

/-- The suspect entry of a unit that failed only under stress, at rung 1 (R513, R518). -/
def stressSuspect (c slot : Nat) (s : State) : State :=
  let e : Suspect := { unit := ukey c slot, perm := false, rung := 1, count := 0, start := rd64 (.unit c slot) 0x824 s, openedAt := now s }
  match takeSuspect e s with
  | (none, s) => s
  | (some (i, _), s) => { s with suspects := setNth s.suspects i e }

/-- A test stops at a failing phase (R518). -/
def stressFail (t : Stress) (s : State) : State :=
  let u := Page.unit t.c t.slot
  let s := wf u 0x818 2 0 t.code s
  if t.phase = 3 ∨ t.phase = 4 then
    stressReturn t (stressSuspect t.c t.slot (wf u 0x818 2 0 (min 7 (t.code + 1)) (stressResult t t.phase s)))
  else if t.phase = 1 then stressResult t 1 { s with stress := s.stress.erase t }
  else
    let s := bump pgDie 0x23C 31 0 1 (stressResult t t.phase { s with stress := s.stress.erase t })
    fenceWrite t.c t.slot true s

/-- The conditions that follow in a test, with the margin code for them (R516, R517): the voltage phase at −2, −4, −6 and −8 %, the margin phase at
the −8 % step for each code below the unit's own, then the heat phase at the unit's own code and the region's supply; none after it. -/
def stressNext (t : Stress) (now : Nat) : Option (Stress × Nat) :=
  let heat : Stress := { t with phase := 5, rail := 0 }
  match t.phase with
  | 1 => some ({ t with phase := 2 }, now)
  | 2 => some ({ t with phase := 3, rail := 2 }, now)
  | 3 => if t.rail < 8 then some ({ t with rail := t.rail + 2 }, now)
         else if t.code = 0 then some (heat, t.code) else some ({ t with phase := 4 }, t.code - 1)
  | 4 => if now = 0 then some (heat, t.code) else some (t, now - 1)
  | _ => none

/-- The supply of a unit's compute in µV (R240, R241, R516): the region's, or the test rail's while the unit is under test; `core` is VDD_CORE. -/
def unitSupply (c slot core : Nat) (s : State) : Nat :=
  let region := clampI 500000 800000 ((core : Int) + 2500 * sx 6 (rf (pgIvr (regionOf c)) 0x104 5 0 s))
  match s.stress.find? (fun t => t.c = c ∧ t.slot = slot) with
  | some t => if (unitAt c slot s).underTest then region.toNat * (100 - t.rail) / 100 else region.toNat
  | none => region.toNat

/-- STRESS_PHASE_COMPLETE (R516–R519): a phase of the test ends, or one supply step of phase 3 or margin code of phase 4 in it. Phase 1 ends once the
spare stands in, or has failed; the reads of a phase that the verdicts do not tell are counted by a free number. A spare that is needed ends the
test with its phase. -/
def execStressPhaseComplete (c slot : Nat) (pass : Bool) (s : State) : Host.Outcome State Fault Refusal :=
  match s.stress.find? (fun t => t.c = c ∧ t.slot = slot) with
  | none => .next s
  | some t =>
    let st := spareSt c t.spare s
    if t.phase = 1 ∧ st ≠ 4 ∧ st ≠ 5 then .next s
    else if t.phase = 1 ∧ st = 5 then .next (stressFail t s)
    else
      let u := Page.unit c slot
      let (w, s1) := takeFree s
      let s := if t.phase = 1 then s else wr64 u 0x824 ((rd64 u 0x824 s1 + w) % 2 ^ 48) s1
      let own (s : State) : State := wf u 0x818 2 0 t.code s
      if !pass ∧ t.phase ≠ 1 then .next (stressFail t s)
      else match stressNext t (rf u 0x818 2 0 s) with
        | none => .next (stressReturn t (if t.wanted then own s else stressResult t 0 (own s)))
        | some (n, code) =>
          if t.wanted ∧ n.phase ≠ t.phase then .next (stressReturn t (own s))
          else .next (marginSet c slot code { s with stress := s.stress.map (fun x => if x = t then n else x) })

end Sys2Proof.Machine
end

