-- ==== Sys2Proof/Machine/Power.lean ====
section
/-! DEFINITION. Reference states, the Damper, the regulators, throttling and the trip (R240–R244, R590–R637, R765). Charge counts 0.1 µA. -/

namespace Sys2Proof.Machine

-- Reference (R596) ----------------------------------------------------------------------------------------------------------------

/-- REF_LOCK (R596): RCLK has been valid for 1 ms; the root locks to it, and the oscillator's trim, which is not stated, is free. -/
def execRefLock (s : State) : Host.Outcome State Fault Refusal :=
  let (w, s) := takeFree s
  .next (setRef 0 (wf pgClk 0x104 23 0 w (wb pgClk 0x100 5 true (wb pgClk 0x100 3 true s))))

/-- REF_HOLDOVER (R596): RCLK is lost. -/
def execRefHoldover (s : State) : Host.Outcome State Fault Refusal :=
  let s := wb pgClk 0x100 3 false s
  .next (if rf pgClk 0x100 2 0 s = 0 then setRef 1 s else s)

/-- REF_MARKS (R596, R599): from FREE, or after 10 s of holdover, with Dzit UP in native mode and SOFLOCK. -/
def execRefMarks (s : State) : Host.Outcome State Fault Refusal :=
  let ref := rf pgClk 0x100 2 0 s
  if dzState s ≠ 2 ∨ dzCompat s ∨ !rb pgDzt 0x104 13 s then .next s
  else .next (if ref = 3 ∨ (ref = 1 ∧ s.refAt + 10 * second ≤ now s) then setRef 2 s else s)

-- The Damper (R611–R620, R765) --------------------------------------------------------------------------------------------------------

/-- One ampere. -/
def amp : Nat := 10000000

/-- Ceiling of a region (R617). -/
def rgnCeil (r : Nat) (s : State) : Nat :=
  min (admSum (fun x => SMap.get 0 x.ipeak r) s * (amp / 10) + amp) (rf pgAdm 0x128 15 0 s * (amp / 10))

/-- Charge of a list of requests that its region's ceiling admits, from the region's charge on (R765). -/
def askable (ceil : Nat) : List DReq → Nat → Nat
  | [], _ => 0
  | a :: l, c =>
    let need := a.whole - a.got
    if ceil < c + need then 0 else need + askable ceil l (c + need)

/-- What a whole grant starts (R611). -/
def granted (r : Nat) (who : Asker) (q : Nat) (s : State) : State :=
  match who with
  | .unit k => updUnit (k / 128) (k % 128) (fun x => { x with
      holding := x.holding + q, cur := x.cur.map (fun o => { o with need := 0 }) }) s
  | .stove int8 => updRgn r (fun x => { x with stvHold := SMap.set 0 x.stvHold (pipeNo int8) q }) s
  | .regulator => updRgn r (fun x => { x with ivrGrant := true, ivrHold := x.ivrHold + q }) s

/-- Serve a region's requests in arrival order from a budget (R765): the budget left. -/
def serveRgn : Nat → Nat → Nat → Nat → State → Nat × State
  | 0, _, _, b, s => (b, s)
  | fuel + 1, r, ceil, b, s =>
    let x := rgnAt r s
    match x.asks with
    | [] => (b, s)
    | a :: l =>
      let need := a.whole - a.got
      if b = 0 ∨ ceil < x.charge + need then (b, s)
      else if b < need then (0, setRgn r { x with asks := { a with got := a.got + b } :: l, charge := x.charge + b } s)
      else serveRgn fuel r ceil (b - need) (granted r a.who a.whole (setRgn r { x with asks := l, charge := x.charge + need } s))

/-- Serve the regions in round-robin order (R765). -/
def serveAll : List Nat → Nat → State → State
  | [], _, s => s
  | r :: rs, b, s =>
    let (b', s') := serveRgn (rgnAt r s).asks.length r (rgnCeil r s) b s
    serveAll rs b' (if b' < b then { s' with rrLast := r } else s')

/-- A queue without its oldest n. -/
def dropCharge : Nat → List Nat → List Nat
  | _, [] => []
  | n, q :: l => if q ≤ n then dropCharge (n - q) l else (q - n) :: l

/-- Take charge out of the release queues, oldest first, region by region. -/
def takeQueues : List Nat → Nat → State → State
  | [], _, s => s
  | r :: rs, n, s =>
    let x := rgnAt r s
    let k := min n (sumN x.relq)
    takeQueues rs (n - k) (if k = 0 then s else setRgn r { x with relq := dropCharge k x.relq, charge := x.charge - k } s)

/-- The release queues, summed (R614). -/
def relNow (s : State) : Nat := sumN (s.rgns.map (fun e => sumN e.2.relq))

/-- Regions from the one after the last served. -/
def rrOrder (s : State) : List Nat := (List.range 64).map (fun i => (s.rrLast + 1 + i) % 64)

/-- One period's exchange of charge (R614, R765): what passes from the queues to requests, what is granted, what is released. -/
def damperMove (s : State) : State :=
  let q := chargeNow s
  let slew := rf pgPwr 0x100 7 0 s * (amp / 100)
  let order := rrOrder s
  let want := sumN (order.map (fun r => askable (rgnCeil r s) (rgnAt r s).asks (rgnAt r s).charge))
  let rel := relNow s
  let t := min want rel
  let up := min (want - t) (min slew (s.qmax - q))
  let down := if up = 0 ∨ s.qmax < q then min (rel - t) slew else 0
  takeQueues order (t + down) (serveAll order (t + up) s)

/-- Draw of a read of every row at full scale (R611). -/
def fullRead (s : State) : Nat := 10 * rf pgPwr 0x160 27 16 s + 128 * rf pgPwr 0x160 7 0 s

/-- Units of a region that may take ember reads (R615). -/
def emberUnits (r : Nat) (s : State) : Nat :=
  (s.units.filter (fun e => decide (regionOf (e.1 / 128) = r) && e.2.cur.isNone && !e.2.fenced && !e.2.underTest &&
    decide (e.2.p0.st = .resident ∨ e.2.p1.st = .resident) && decide (e.2.p0.st ≠ .programming ∧ e.2.p1.st ≠ .programming))).length

/-- Ballast of a region (R615): ember reads, in a number that is not stated and is free, and the shunt for the remainder. Whether the shunt
carries some. -/
def ballast (r : Nat) (s : State) : Bool × State :=
  let b := sumN (rgnAt r s).relq
  if b = 0 then (false, s)
  else
    let n := emberUnits r s
    let s := if n = 0 then s else
      let (w, s) := takeFree s
      countRgn r 0x18 w (bump pgPwr 0x144 31 0 w s)
    (decide (n * fullRead s < b), s)

/-- The regions' ballast, and PWR_STAT.SHUNT (R631). -/
def ballastAll (s : State) : State :=
  let (sh, s) := (List.range 64).foldl (fun (a : Bool × State) r => let (b, s) := ballast r a.2; (a.1 || b, s)) (false, s)
  let s := wb pgPwr 0x110 3 sh s
  if sh then countDie 0xB1 0 1 s else s

/-- qmax has been reached (R618): PWR_STAT.LIMIT, and PWR_LIMIT once in 1 ms. -/
def limitNote (s : State) : State :=
  let s := wb pgPwr 0x110 0 true s
  if s.limitAt ≠ 0 ∧ now s + 1 < s.limitAt + msec then s else fire 96 { s with limitAt := now s + 1 }

/-- What ends a ramp-down once every region is off (R609): the stacks in self refresh, the ports off. -/
def svcFinish (s : State) : State :=
  if (List.range 64).all (fun r => (rgnAt r s).off) then
    let s := foldRange 20 (fun n s => wb (pgStk n) 0x104 2 true (wb (pgStk n) 0x104 0 false s)) s
    dzDown (foldRange 5 linkDrop s)
  else s

/-- In SERVICE and under a trip, a region whose clusters all hold gives its charge back and powers off when none is left (R609, R623). -/
def rampDown (s : State) : State :=
  if !inService s && !tripped s then s
  else
    let s := foldRange 64 (fun r s => if rgnHolds r s then rgnOff r (rgnGive r s) else s) s
    if inService s then svcFinish s else s

/-- DAMPER_PERIOD (R614, R615, R618, R637): once in each 10 ns of rack time. -/
def execDamperPeriod (s : State) : Host.Outcome State Fault Refusal :=
  if s.dampAt = some (now s) then .next s
  else
    let s := damperMove { s with dampAt := some (now s) }
    let s := if s.rgns.any (fun e => !e.2.asks.isEmpty) then countDie 0xB0 0 1 (bump pgPwr 0x140 31 0 1 s) else s
    let s := ballastAll s
    let s := if s.qmax ≤ chargeNow s ∧ 0 < chargeNow s then limitNote s else s
    .next (rampDown s)

-- Regulators (R240–R244) ------------------------------------------------------------------------------------------------------------------

/-- VDD_CORE in mV: measured, or the setpoint before the first measurement. -/
def vddNow (s : State) : Nat := let m := rf pgPwr 0x114 25 16 s; if m = 0 then rf pgPwr 0x114 9 0 s else m

/-- Whether a region's supply would lie outside 0.50 to 0.80 V (R241). -/
def ivrOut (r : Nat) (s : State) : Bool :=
  let v := (10 * vddNow s : Nat) + 25 * sx 6 (rf (pgIvr r) 0x104 5 0 s)
  decide (v < 5000 ∨ 8000 < v)

/-- Bring IVR_STAT.CLAMP in line with the supply; IVR_CLAMP is raised when it becomes 1 (R241, R666). -/
def ivrClamp (r : Nat) (s : State) : State :=
  let c := ivrOut r s
  let was := rb (pgIvr r) 0x104 9 s
  if c = was then s
  else
    let s := wb (pgIvr r) 0x104 9 c s
    if c then fireRgn r 11 s else s

/-- The regulator moves one code (R240). -/
def ivrMove (r : Nat) (d : Int) (s : State) : State :=
  ivrClamp r (wf (pgIvr r) 0x104 5 0 (tc 6 (sx 6 (rf (pgIvr r) 0x104 5 0 s) + d)) s)

/-- IVR_STEP (R240, R241, R611): a step up first asks for 1 % of the region's charge and moves once that is granted; a step down moves and
releases as much. -/
def execIvrStep (r : Nat) (s : State) : Host.Outcome State Fault Refusal :=
  let goal := sx 6 (rf (pgIvr r) 0x100 5 0 s)
  let cur := sx 6 (rf (pgIvr r) 0x104 5 0 s)
  let x := rgnAt r s
  let q := x.charge / 100
  if goal = cur then .next s
  else if goal < cur then .next (ivrMove r (-1) (release r q (setRgn r { x with ivrHold := x.ivrHold - q } s)))
  else if x.ivrGrant ∨ q = 0 then .next (ivrMove r 1 (setRgn r { x with ivrGrant := false } s))
  else if x.asks.any (fun a => a.who = .regulator) then .next s
  else .next (askDamper r .regulator q s)

/-- A write of IVR_OFS (R243): limits that R243 refuses stay; a target outside them sets the nearer one. -/
def ivrWrite (r : Nat) (v : Word) (s : State) : State :=
  let p := pgIvr r
  let lk := locked p s
  let lo := sx 6 (getF v 21 16)
  let hi := sx 6 (getF v 13 8)
  let ok := decide (-16 ≤ lo ∧ hi ≤ 16 ∧ lo ≤ hi)
  let s := if !lk && ok && decide (getF v 13 8 ≠ rf p 0x100 13 8 s) then logWritten s else s
  let s := if lk || !ok then s else wf p 0x100 13 8 (getF v 13 8) (wf p 0x100 21 16 (getF v 21 16) s)
  let code := sx 6 (getF v 5 0)
  let kept := clampI (sx 6 (rf p 0x100 21 16 s)) (sx 6 (rf p 0x100 13 8 s)) code
  let s := wf p 0x100 5 0 (tc 6 kept) s
  let rsv := decide (getF v 31 22 ≠ 0 ∨ getF v 15 14 ≠ 0 ∨ getF v 7 6 ≠ 0)
  recIf ((!lk && !ok) || decide (kept ≠ code)) p errFIELD (recIf lk p errLOCKWR (recIf rsv p errRESWR s))

/-- IVR_OFS_WRITE (R243). -/
def execIvrOfsWrite (q : Requester) (r : Nat) (v : Word) (s : State) : Host.Outcome State Fault Refusal :=
  .next (guardWrite q (pgIvr r) 0x100 (ivrWrite r v) s)

/-- QMAX_RECOMPUTE (R618, R630, R632): qmax from the power measured outside VDD_CORE (0.1 W) and the supply (mV), with the measurements of
PWR_MEAS. At a supply of 0 the quotient is not stated and is free. -/
def execQmaxRecompute (pOther vdd coreA power : Nat) (s : State) : Host.Outcome State Fault Refusal :=
  let (w, s) := if vdd = 0 then takeFree s else (0, s)
  let q := if vdd = 0 then w else (rf pgPwr 0x104 15 0 s - pOther) * 1000000000 / vdd
  let s := wr pgPwr 0x10C (word (min power 65535 * 2 ^ 16 + min coreA 65535)) (wf pgPwr 0x114 25 16 (min vdd 1023) { s with qmax := q })
  let s := if q ≤ chargeNow s ∧ 0 < chargeNow s then limitNote s else s
  .next (foldRange 64 ivrClamp s)

-- Throttling and the trip (R621–R623) ----------------------------------------------------------------------------------------------------

/-- Temperature of a zone in 1/16 °C (R205). -/
def zoneTemp (r z : Nat) (s : State) : Nat := rf (pgTrm r) (0x110 + 4 * z) 11 0 s

/-- The level of a region rises by one, to 4 at most (R621). -/
def thRise (r : Nat) (s : State) : State :=
  let x := rgnAt r s
  if 4 ≤ x.level then s
  else
    let s := countDie 0xB2 0 1 (bump pgPwr 0x148 31 0 1 (setRgn r { x with level := x.level + 1 } s))
    if x.level = 0 then fire 97 s else s

/-- Move a region's throttle level by its zones and by time (R621). A region whose converter is off takes no part (R654). -/
def thermal (r : Nat) (s : State) : State :=
  let x := rgnAt r s
  let th := rf pgPwr 0x118 7 0 s
  let hot := (List.range 8).any (fun z => decide (16 * th < zoneTemp r z s))
  let cool := (List.range 8).all (fun z => decide (zoneTemp r z s + 16 * rf pgPwr 0x118 19 16 s ≤ 16 * th))
  if x.fenced ∨ x.off then s
  else if hot then
    let s := setRgn r { x with hot := some (match x.hot with | none => now s | some t => if t + 100 * usec ≤ now s then t + 100 * usec else t),
                               cool := none } s
    match x.hot with
    | none => thRise r s
    | some t => if t + 100 * usec ≤ now s then thRise r s else s
  else if !cool then setRgn r { x with hot := none, cool := none } s
  else match x.cool with
    | none => setRgn r { x with hot := none, cool := some (now s) } s
    | some t =>
      if now s < t + msec then s else setRgn r { x with hot := none, cool := some (t + msec), level := x.level - 1 } s

/-- THROTTLE_TIMER (R621). -/
def execThrottleTimer (r : Nat) (s : State) : Host.Outcome State Fault Refusal := .next (thermal r s)

/-- The thermal trip (R623, R696): every cluster and every grant of advance is held, the stacks go into self refresh, a record is written, PWR_TRIP
is raised, and the identity key is erased. Regions power off as their charge is released. -/
def tripNow (s : State) : State :=
  if tripped s then s
  else
    let s := wb pgPwr 0x110 2 true { s with boot := { s.boot with keyHeld := false } }
    let s := foldRange 20 (fun n s => wb (pgStk n) 0x104 2 true (wb (pgStk n) 0x104 0 false s)) s
    fire 98 (writeRec { kind := 0x0D } s)

-- Reset and hot service (R607–R610, R756) --------------------------------------------------------------------------------------------------

/-- RESET (R607, R697, R717, R756): RST_N rises; the straps are sampled, the measurements are zero, and stage 1 begins unless SVC_WARN_N is
low. -/
def execReset (boardPos devPos : Nat) (s : State) : Host.Outcome State Fault Refusal :=
  if s.enabled then .next s
  else
    let s := wr pgDie 0x108 (word (boardPos % 64 * 2 ^ 8 + devPos % 8)) s
    .next { s with enabled := true, meas := [], boot := { s.boot with
      waiting := s.svcLow, roseAt := now s, stageAt := now s, rows := 0, rowAt := now s } }

/-- REGION_POWER_STAGE (R607): the next row of regions powers on, the first at once and each other 2.5 ms after the one before it. -/
def execRegionPowerStage (s : State) : Host.Outcome State Fault Refusal :=
  let b := s.boot
  if !s.enabled ∨ b.waiting ∨ inService s ∨ 8 ≤ b.rows ∨ (b.rows ≠ 0 ∧ now s < b.rowAt + 2500 * usec) then .next s
  else
    let s := foldRange 8 (fun i s => updRgn (8 * b.rows + i) (fun x => { x with off := false }) s) s
    .next { s with boot := { s.boot with rows := b.rows + 1, rowAt := now s } }

/-- Keys of the physical slots of which some register is not at its reset value. -/
def unitKeys (s : State) : List Nat :=
  ((s.regs.filter (fun e => decide (2 ^ 40 ≤ e.1 ∧ e.1 < 2 ^ 48))).map (fun e => (e.1 - 2 ^ 40) / 4096)).eraseDups

/-- Write every unit's coefficients to the Logbook, over those that it held before too (R183, R609). -/
def coefAll (s : State) : State :=
  ((unitKeys s) ++ (s.logCoef.map (·.1)).filter (fun k => !(unitKeys s).contains k)).foldl (fun s k =>
    { s with logCoef := SMap.set [] s.logCoef k (coefWords (k / 128) (k % 128) s), logTime := SMap.set 0 s.logTime k (now s + 1) }) s

/-- Write every plane's wear count to the Logbook (R609). -/
def wearAll (s : State) : State :=
  (unitKeys s).foldl (fun s k => saveWear (k / 128) (k % 128) 1 (saveWear (k / 128) (k % 128) 0 s)) s

/-- SVC_WARN (R609, R610, R756): the fall of SVC_WARN_N is recognised. One HEART of state LEAVING leaves where the pair is formed, the device
enters SERVICE, the identity key is erased (R696), and the Logbook is written; charges, regions, stacks and ports follow as the Damper
releases charge. Before the RST_N rise the pin alone is noted. -/
def execSvcWarn (s : State) : Host.Outcome State Fault Refusal :=
  if s.svcLow then .next s
  else
    let s := { s with svcLow := true }
    if !s.enabled then .next s
    else
      let s := if 2 ≤ twnState s ∧ twnState s ≤ 4 then sendHeart 0xFF s else s
      .next (wearAll (coefAll (wb pgPwr 0x110 1 true { s with boot := { s.boot with keyHeld := false } })))

end Sys2Proof.Machine
end

