-- ==== Sys2Proof/Machine/Sense.lean ====
section
/-! DEFINITION. The sense converters (R638–R664): conversions, their results, triggers, and the zone temperatures (R171, R172, R205). -/

namespace Sys2Proof.Machine

-- Zone temperatures --------------------------------------------------------------------------------------------------------------------

/-- Lower edge in °C and drive component of a band (R206). -/
def bandTlo (r b : Nat) (s : State) : Nat := rf (pgTrm r) (0x130 + 4 * b) 23 16 s
def bandDrv (r b : Nat) (s : State) : Int := sx 9 (rf (pgTrm r) (0x130 + 4 * b) 8 0 s)

/-- The band of a temperature in 1/16 °C (R172). -/
def bandIdx (r t : Nat) (s : State) : Nat := (List.range 8).foldl (fun a b => if 16 * bandTlo r b s ≤ t then b else a) 0

/-- BAND of a temperature (R172). -/
def bandOf (r t : Nat) (s : State) : Int :=
  let b := min 6 (bandIdx r t s)
  let dt : Nat := 16 * (bandTlo r (b + 1) s - bandTlo r b s)
  rneDiv (bandDrv r b s * (dt : Int) + ((t : Int) - 16 * (bandTlo r b s : Int)) * (bandDrv r (b + 1) s - bandDrv r b s)) dt

/-- A zone's diode has been converted (R171, R205, R621, R623, R644). DESIGN CHOICE (entry 90): a BAND beyond −256 or +255 is held at that limit
of its field; R172 does not bound it. -/
def zoneSet (r z temp16 : Nat) (s : State) : State :=
  let t := min temp16 4095
  let p := pgTrm r
  let s := wf p (0x110 + 4 * z) 14 12 (bandIdx r t s) (wf p (0x110 + 4 * z) 11 0 t s)
  let s := if rb p 0x100 2 s then wf p (0x110 + 4 * z) 24 16 (tc 9 (clampI (-256) 255 (bandOf r t s))) s else s
  let s := thermal r s
  if 110 * 16 < t then tripNow s else s

-- The result queue (R652, R653) ---------------------------------------------------------------------------------------------------------

/-- Change a region's converter. -/
def updSns (r : Nat) (f : Sns → Sns) (s : State) : State := updRgn r (fun x => { x with sns := f x.sns }) s

/-- A result is discarded: counted, and SNS_OVF at most once in 1 ms (R653). -/
def snsDrop (r : Nat) (s : State) : State :=
  let s := bump (pgSns r) 0x1D8 31 0 1 s
  if now s < (rgnAt r s).sns.ovfUntil then s else fireRgn r 10 (updSns r (fun x => { x with ovfUntil := now s + msec }) s)

/-- A result meets the queue (R653). -/
def snsQueue (r : Nat) (e : SnsRes) (s : State) : State :=
  let l := (rgnAt r s).sns.queue
  let put (l : List SnsRes) (s : State) : State := updSns r (fun x => { x with queue := l ++ [e] }) s
  if l.length < 64 then put l s
  else match (if e.src = 1 ∨ e.src = 2 then l.find? (fun d => d.src = 0 ∨ d.src = 3) else none) with
    | none => snsDrop r s
    | some d => put (l.erase d) (snsDrop r s)

/-- Whether the readout of channel 20 finds its unit (R651): fenced, or open to a chunk outside a gap (R177). -/
def refSource (r : Nat) (s : State) : Bool :=
  let w := rd (pgSns r) 0x1C4 s
  let c := clusterOf r (getF w 7 0)
  let slot := getF w 14 8
  decide (slot < 68) && ((unitAt c slot s).fenced || calFree c slot s)

/-- Smallest sampling code of a channel (R640), and the error of a code at a gain in LSB (R639). -/
def minSts (ch : Nat) : Nat :=
  if ch < 8 then 3 else if ch < 12 then 2 else if ch < 20 then 3 else if ch = 20 then 5 else if 22 ≤ ch ∧ ch < 30 then 4 else 0
def snsErr (gain : Nat) : Nat := nth 0 [3, 4, 6, 10] gain

/-- One conversion as its entry orders it (R641, R649, R650): channel, sampling code, gain, and the DAC code that the test switch puts on the
channel's path. -/
structure SnsEntry where
  ch   : Nat
  sts  : Nat
  gain : Nat
  tsw  : Option Nat
deriving DecidableEq, Repr

/-- A code near its ideal (R639): within the error of the gain, or any code where the sampling time is below the channel's minimum; which one is
free. -/
def codeNear (x : SnsEntry) (ideal : Nat) (s : State) : Nat × State :=
  let (w, s) := takeFree s
  let b := snsErr x.gain
  (if x.sts < minSts x.ch then w % 4096 else (clampI 0 4095 ((ideal + w % (2 * b + 1) : Nat) - (b : Int))).toNat, s)

/-- Code of a conversion and its NOSRC (R638, R639, R650, R651). Channel 31 reads the test DAC, a closed test switch puts it on the path, code ×
1.200 V / 1,024, and channel 20 without its source converts ground; of another source the command gives the voltage as the converter finds it. -/
def snsCode (r : Nat) (x : SnsEntry) (uv : Nat) (s : State) : Nat × Bool × State :=
  let dac (d : Nat) : Nat × Bool × State :=
    let (n, s) := codeNear x (min 4095 (4 * d * 2 ^ x.gain)) s
    (n, false, s)
  match x.tsw with
  | some d => dac d
  | none =>
    if x.ch = 31 then dac (rf (pgSns r) 0x1C0 9 0 s)
    else if x.ch = 20 ∧ !refSource r s then
      let (n, s) := codeNear x 0 s
      (n, true, s)
    else ((clampI 0 4095 (rneDiv ((uv * 2 ^ x.gain * 4096 : Nat) : Int) 1200000)).toNat, false, s)

/-- One result: the code of R638, kept in SNS_LASTn, in the queue where it belongs there, and as a zone's temperature (R644, R652). TIME
is 600 ns before the end of the conversion. -/
def snsResult (r src entry : Nat) (x : SnsEntry) (uv temp16 : Nat) (s : State) : State :=
  let (code, nosrc, s) := snsCode r x uv s
  let t := ((now s : Int) - 60) % ((2 ^ 64 : Nat) : Int)
  let n := (rgnAt r s).sns.runs
  let e : SnsRes := { src := src, entry := entry, nosrc := nosrc, gain := x.gain, ch := x.ch, code := code,
                      seqid := nth 0 n src % 256, time := t.toNat % 2 ^ 24 }
  let s := wr (pgSns r) (0x200 + 4 * x.ch) (word (t.toNat / 2 ^ 10 % 2 ^ 16 * 2 ^ 16 + x.gain * 2 ^ 14 + code)) s
  let s := if src = 3 ∧ !rb (pgSns r) 0x100 9 s then s else snsQueue r e s
  if x.ch < 8 ∧ x.gain = 0 then zoneSet r x.ch temp16 s else s

/-- A regular or injected conversion of a channel: gain ×1, sampling code RTS (R645). -/
def plainEntry (r ch : Nat) (s : State) : SnsEntry := { ch := ch, sts := rf (pgSns r) 0x100 11 10 s, gain := 0, tsw := none }

/-- A run of a source kind is over (R652). -/
def snsRun (r src : Nat) (s : State) : State := updSns r (fun x => { x with runs := x.runs.set src ((nth 0 x.runs src + 1) % 256) }) s

-- Conversions (R642–R650) ------------------------------------------------------------------------------------------------------------------

/-- The thermal slot converts the next diode (R643). -/
def snsThermal (r uv temp16 : Nat) (s : State) : State :=
  let d := (rgnAt r s).sns.diode % 8
  let s := updSns r (fun x => { x with diode := (d + 1) % 8 }) (snsResult r 3 d { ch := d, sts := 3, gain := 0, tsw := none } uv temp16 s)
  if d = 7 then snsRun r 3 s else s

/-- Channel of entry i in registers that hold four entries a word (R657). -/
def seqChan (p : Page) (off i : Nat) (s : State) : Nat := rf p (off + i / 4 * 4) (8 * (i % 4) + 4) (8 * (i % 4)) s

/-- The next regular entry; a pass takes its entries and length at its start (R645). -/
def snsRegular (r uv temp16 : Nat) (s : State) : State :=
  let x := (rgnAt r s).sns
  let pass := if x.regPos = 0 ∨ x.pass.length ≤ x.regPos then
    (List.range (rf (pgSns r) 0x100 20 16 s + 1)).map (fun i => seqChan (pgSns r) 0x140 i s) else x.pass
  let i := if x.pass.length ≤ x.regPos then 0 else x.regPos
  let s := snsResult r 0 i (plainEntry r (nth 0 pass i) s) uv temp16 s
  let last := decide (pass.length ≤ i + 1)
  let s := updSns r (fun x => { x with pass := pass, regPos := if last then 0 else i + 1 }) s
  if last then snsRun r 0 s else s

/-- The next injected entry; the last raises SNS_INJ and starts the further run where one is due (R647, R648). -/
def snsInjected (r uv temp16 : Nat) (s : State) : State :=
  let p := pgSns r
  let i := (rgnAt r s).sns.injPos
  let s := snsResult r 1 i (plainEntry r (seqChan p 0x108 (i % 4) s) s) uv temp16 s
  if i < rf p 0x10C 5 4 s then updSns r (fun x => { x with injPos := i + 1 }) s
  else
    let s := wf p 0x110 3 0 (rgnAt r s).sns.cause (bump p 0x110 31 16 1 s)
    let s := fireRgn r 8 (wb p 0x104 3 false (snsRun r 1 s))
    if rb p 0x104 4 s then
      let pc := rf p 0x110 7 4 s
      let s := updSns r (fun x => { x with injPos := 0, cause := pc, injAt := now s }) s
      wf p 0x110 7 4 0 (wb p 0x104 4 false (wb p 0x104 3 true s))
    else updSns r (fun x => { x with injPos := 0 }) s

/-- The next programmable entry, with its test switch (R650); the last ends a one-shot sequence and raises SNS_PDONE (R649). -/
def snsProg (r uv temp16 : Nat) (s : State) : State :=
  let p := pgSns r
  let i := (rgnAt r s).sns.progPos % 16
  let w := rd p (0x180 + 4 * i) s
  let s := snsResult r 2 i { ch := getF w 4 0, sts := getF w 7 5, gain := getF w 9 8,
                             tsw := if getB w 10 then some (rgnAt r s).sns.dac else none } uv temp16 s
  if i < rf p 0x100 15 12 s then updSns r (fun x => { x with progPos := i + 1 }) s
  else
    let s := snsRun r 2 (updSns r (fun x => { x with progPos := 0 }) s)
    if rb p 0x100 8 s then fireRgn r 9 (wb p 0x104 2 false s) else s

/-- A change of MODE takes effect as a conversion ends (R642, R649); under a trip the converter stays in NORMAL and its sequences
stop (R654). -/
def snsMode (r : Nat) (s : State) : State :=
  let p := pgSns r
  let want := rb p 0x100 1 s && !tripped s
  let s := if tripped s then wf p 0x104 4 2 0 s else s
  if rb p 0x104 1 s = want then s
  else
    let s := updSns r (fun x => { x with slotNo := 0, regPos := 0 }) (wb p 0x104 1 want s)
    if want then s else wb p 0x104 2 false s

/-- The next entry begins with the DAC code in force: a write while it samples takes effect at the entry after it (R650). -/
def snsLatch (r : Nat) (s : State) : State := updSns r (fun x => { x with dac := rf (pgSns r) 0x1C0 9 0 s }) s

/-- SNS_CONVERSION (R638, R642–R653): the conversion of the current slot ends, with the voltage at the converter's side in µV and, for a
diode, its temperature in 1/16 °C. A slot in which nothing else runs is a thermal slot. -/
def execSnsConversion (r : Nat) (microvolt : Nat) (temp16 : Nat) (s : State) : Host.Outcome State Fault Refusal :=
  let x := rgnAt r s
  let p := pgSns r
  if x.fenced ∨ inService s ∨ (x.off ∧ !tripped s) then .next s
  else
    let prog := rb p 0x104 1 s
    let therm := if prog then x.sns.slotNo % 2 == 1 else x.sns.slotNo % 5 == 4
    let s := countRgn r 0x58 1 (updSns r (fun y => { y with slotNo := y.slotNo + 1 }) s)
    let s :=
      if therm || tripped s || !rb p 0x100 0 s then snsThermal r microvolt temp16 s
      else if rb p 0x104 3 s then snsInjected r microvolt temp16 s
      else if !prog then snsRegular r microvolt temp16 s
      else if rb p 0x104 2 s then snsProg r microvolt temp16 s
      else snsThermal r microvolt temp16 s
    .next (snsMode r (snsLatch r s))

-- Triggers (R646–R649) -----------------------------------------------------------------------------------------------------------------------

/-- DROOP_TRIGGER (R243, R646): the compute supply has been at a voltage, in µV, for a time in ns; it fires more than DROOP mV below PWR_VREQ.MV plus the
region's offset in force, for 20 ns. -/
def execDroopTrigger (r uv ns : Nat) (s : State) : Host.Outcome State Fault Refusal :=
  let want : Int := 1000 * (rf pgPwr 0x114 9 0 s : Int) + 2500 * sx 6 (rf (pgIvr r) 0x104 5 0 s)
  .next (if (uv : Int) + 1000 * rf (pgSns r) 0x10C 15 8 s < want ∧ 20 ≤ ns then snsTrigger r 0 s else s)

/-- THERMAL_TRIGGER (R646): a diode of the region is at a temperature in 1/16 °C; it fires above THOT. -/
def execThermalTrigger (r temp16 : Nat) (s : State) : Host.Outcome State Fault Refusal :=
  .next (if 16 * rf (pgSns r) 0x10C 31 24 s < temp16 then snsTrigger r 1 s else s)

/-- STORM_TRIGGER (R646): STORM or more failing or repeated reads of the region lie within the last 10 µs. -/
def execStormTrigger (r : Nat) (s : State) : Host.Outcome State Fault Refusal :=
  let n := ((rgnAt r s).storm.filter (fun t => now s ≤ t + 10 * usec)).length
  .next (if rf (pgSns r) 0x10C 23 16 s ≤ n then snsTrigger r 2 s else s)

/-- SWTRIG (R646): SNS_TRIG.SWTRIG is written with 1. -/
def execSwtrig (q : Requester) (r : Nat) (s : State) : Host.Outcome State Fault Refusal := .next (guardWrite q (pgSns r) 0x10C (snsTrigger r 3) s)

/-- A write of 1 to SNS_CTRL.START (R649): ignored and recorded in NORMAL or during a run. -/
def snsStartWrite (r : Nat) (s : State) : State :=
  let p := pgSns r
  if !rb p 0x104 1 s ∨ rb p 0x104 2 s then recordErr p errOPIGN s
  else wb p 0x104 2 true (updSns r (fun x => { x with progPos := 0 }) (snsLatch r s))

/-- SNS_START (R649). -/
def execSnsStart (q : Requester) (r : Nat) (s : State) : Host.Outcome State Fault Refusal := .next (guardWrite q (pgSns r) 0x100 (snsStartWrite r) s)

/-- Where a requester's latch of a HI register lies (R108, R729). -/
def latchKey (q : Requester) (p : Page) (off : Nat) : Nat := p.base + off + 2 ^ 48 * reqNo q

/-- Latch a word for a requester (R108). -/
def setLatch (q : Requester) (p : Page) (off : Nat) (v : Word) (s : State) : State := { s with latch := SMap.set 0 s.latch (latchKey q p off) v }

/-- A requester's latch of a HI register; 0 before it first reads the LO register (R108). -/
def getLatch (q : Requester) (p : Page) (off : Nat) (s : State) : Word := SMap.get 0 s.latch (latchKey q p off)

/-- A read of SNS_RES_LO (R652, R662): claims the oldest result and latches SNS_RES_HI; an empty queue answers VALID 0. -/
def snsClaim (q : Requester) (r : Nat) (s : State) : Word × State :=
  match (rgnAt r s).sns.queue with
  | [] => (0, s)
  | e :: l =>
    let lo := 2 ^ 31 + e.src * 2 ^ 29 + e.entry % 32 * 2 ^ 24 + b2n e.nosrc * 2 ^ 23 + e.gain % 4 * 2 ^ 21 + e.ch % 32 * 2 ^ 12 + e.code
    (word lo, setLatch q (pgSns r) 0x1D4 (word (e.seqid * 2 ^ 24 + e.time)) (updSns r (fun x => { x with queue := l }) s))

/-- SNS_RES_CLAIM (R652). -/
def execSnsResClaim (q : Requester) (r : Nat) (s : State) : Host.Outcome State Fault Refusal := .next (guardRead q (pgSns r) (snsClaim q r) s)

end Sys2Proof.Machine
end

