-- ==== Sys2Proof/Machine/Write.lean ====
section
/-! DEFINITION. A write of a register under its fields' access codes and rules (R20–R24, R739, R743, R744). -/

namespace Sys2Proof.Machine

/-- The outcome of a write: the word, and whether it met a locked field, a field's rule, or a reserved bit. -/
structure Written where
  w     : Nat
  lock  : Bool
  field : Bool
  rsv   : Bool

/-- The value a field of w bits takes under its rule, and whether the rule limited it or left it unchanged (R739). -/
def ruled (w : Nat) (rule : FRule) (old x : Nat) : Nat × Bool :=
  match rule with
  | .any => (x, false)
  | .within lo hi => (clampN lo hi x, decide (clampN lo hi x ≠ x))
  | .below n => if n ≤ x then (old, true) else (x, false)
  | .signedTo n => if n < (sx w x).natAbs then (old, true) else (x, false)

/-- One field of a write, from its present value and the value written: the new value, and whether the write met a locked field or a
rule (R20). `held` is a field that its register's own rule keeps as it is; writing its own value is no event (R118, R676). -/
def fieldWrite (lk held : Bool) (old x : Nat) (f : Field) : Nat × Bool × Bool :=
  let put : Nat × Bool := if held then (old, decide (x ≠ old)) else ruled (f.hi + 1 - f.lo) f.rule old x
  match f.acc with
  | .rw => (put.1, false, put.2)
  | .rwl => if lk then (old, true, false) else (put.1, false, put.2)
  | .w1c => (old - Nat.land old x, false, false)
  | .w1s => (Nat.lor old x, false, false)
  | .ro | .wo | .rcl => (old, false, false)

/-- The bits of a word that lie in fields. -/
def inFields (fs : List Field) (v : Nat) : Nat := sumN (fs.map (fun f => fld v f.hi f.lo * 2 ^ f.lo))

/-- A write of a word over an old one (R20–R22). `held` names fields by their lowest bit. -/
def writeFields (fs : List Field) (lk : Bool) (held : Nat → Bool) (old v : Nat) : Written :=
  fs.foldl (fun a f =>
    let r := fieldWrite lk (held f.lo) (fld old f.hi f.lo) (fld v f.hi f.lo) f
    { a with w := putFld a.w f.hi f.lo r.1, lock := a.lock || r.2.1, field := a.field || r.2.2 })
    { w := old, lock := false, field := false, rsv := decide (inFields fs v ≠ v) }

/-- Record what a write met, each kind once (R22, R739, R744). -/
def recWrite (p : Page) (a : Written) (s : State) : State :=
  recIf a.field p errFIELD (recIf a.lock p errLOCKWR (recIf a.rsv p errRESWR s))

/-- Write a register of a page; `held` names the fields that its own rule keeps. -/
def putReg (p : Page) (off : Nat) (held : Nat → Bool) (v : Word) (s : State) : State :=
  let a := writeFields ((p.fields off).getD []) (locked p s) held (rd p off s).toNat v.toNat
  recWrite p a (wr p off (word a.w) s)

/-- Write a register some of whose fields its own rule keeps whatever is written: such a write is recorded even where it would change nothing
(R49), unless the field is locked. -/
def putKeeping (p : Page) (off : Nat) (held : Nat → Bool) (v : Word) (s : State) : State :=
  let fs := (p.fields off).getD []
  let lk := locked p s
  let a := writeFields fs lk held (rd p off s).toNat v.toNat
  recWrite p { a with field := a.field || (!lk && fs.any (fun f => held f.lo)) } (wr p off (word a.w) s)

/-- Write a register by its access codes alone. A word that no register occupies takes no value, and a non-zero write of it is recorded
(R22, R723). -/
def putPlain (p : Page) (off : Nat) (v : Word) (s : State) : State := putReg p off (fun _ => false) v s

/-- Write a requester's copy of a banked register (R729). -/
def putBank (q : Requester) (p : Page) (off : Nat) (v : Word) (s : State) : State :=
  let a := writeFields ((p.fields off).getD []) (locked p s) (fun _ => false) (rdQ q p off s).toNat v.toNat
  recWrite p a (wrQ q p off (word a.w) s)

/-- Write a register that its own rule discards as a whole where `used`: FIELD is recorded (R739), or LOCKWR on a locked page whose
register it locks. -/
def putUnless (used : Bool) (p : Page) (off : Nat) (v : Word) (s : State) : State :=
  if used then
    let a := writeFields ((p.fields off).getD []) (locked p s) (fun _ => true) (rd p off s).toNat v.toNat
    recWrite p { a with field := !a.lock } s
  else putPlain p off v s

/-- A write that changes a register of the configuration kept in the Logbook writes its record (R686). -/
def logIf (p : Page) (off : Nat) (t s : State) : State := if rd p off t = rd p off s then t else logWritten t

-- The page header (R735–R744) --------------------------------------------------------------------------------

/-- LOCK (R743): an unlocked page takes a non-zero key; else it is ignored and recorded. -/
def lockPage (p : Page) (key : Nat) (s : State) : State :=
  if locked p s ∨ key = 0 then recordErr p errOPIGN s
  else { s with locks := SMap.set 0 s.locks p.errPage.base key }

/-- UNLOCK (R743): of an unlocked page OPIGN; with another key LOCKWR; with the stored key the page is unlocked. -/
def unlockPage (p : Page) (key : Nat) (s : State) : State :=
  if !locked p s then recordErr p errOPIGN s
  else if SMap.get 0 s.locks p.errPage.base ≠ key then recordErr p errLOCKWR s
  else { s with locks := SMap.set 0 s.locks p.errPage.base 0 }

/-- A write of PG_LOCK (R743). -/
def lockWrite (p : Page) (v : Word) (s : State) : State :=
  let s := recIf (decide (getF v 15 2 ≠ 0)) p errRESWR s
  match getF v 1 0 with
  | 0 => s
  | 1 => lockPage p (getF v 31 16) s
  | 2 => unlockPage p (getF v 31 16) s
  | _ => recordErr p errFIELD s

/-- A write of PG_ERRSET (R740): with TEST each 1 is recorded as its event would be; without, the count rises by one. Bits [31:9] are
reserved. -/
def errSetWrite (p : Page) (v : Word) (s : State) : State :=
  let s := recIf (decide (getF v 31 9 ≠ 0)) p errRESWR s
  if rb p 0x008 3 s then foldRange 9 (fun b s => if getB v b then recordErr p b s else s) s
  else bump p 0x01C 31 0 1 s

/-- Counter fields with access RW, which a statistics reset clears (R737). -/
def isCounter (p : Page) (off : Nat) (f : Field) : Bool :=
  match p.cls with
  | (0x30, _) => match p with
    | .unit _ _ => decide (off = 0x820)
    | _ => false
  | (0x0C, _) => decide (off = 0x444 ∧ f.lo = 16)
  | (0x0E, _) => decide (0x200 ≤ off ∧ off < 0x300)
  | (0x24, _) => decide (0x180 ≤ off ∧ off < 0x1C0)
  | (0x11, _) => false
  | _ => decide (off = 0x01C ∨ (0x100 ≤ off ∧ f.acc = .rw ∧ f.hi = 31 ∧ f.lo = 0))

/-- A register after the writes of a statistics reset (R737): RW counters 0, and, where `flags`, W1C fields. -/
def clearStats (flags : Bool) (p : Page) (off : Nat) (s : State) : State :=
  let fs := (p.fields off).getD []
  let hit (f : Field) : Bool := (flags && decide (f.acc = .w1c)) || (decide (f.acc = .rw) && isCounter p off f)
  if fs.any hit then
    wr p off (word (fs.foldl (fun w f => if hit f then putFld w f.hi f.lo 0 else w) (rd p off s).toNat)) s
  else s

/-- Clear the statistics of every register of a list. -/
def clearAll (flags : Bool) (p : Page) (rs : List Reg) (s : State) : State :=
  rs.foldl (fun s g => foldRange g.n (fun i s => clearStats flags p (g.off + g.stride * i) s) s) s

/-- A write of 1 to PG_CTRL.RESET (R737): counters, W1C fields, PG_ERR and PG_ERRCNT of the page, and of the unit window of all 68 slots
of a cluster page; of the CNT page also the layer counters and hits (R153). -/
def statsReset (p : Page) (s : State) : State :=
  let s := wr p 0x01C 0 (wr p 0x010 0 (clearAll true p p.table s))
  match p with
  | .clu c => foldRange 68 (fun k s => clearStats true (.unit c k) 0x820 (clearStats true (.unit c k) 0x81C s)) s
  | .die 0xF0 => { s with layerRegs := s.layerRegs.filter (fun e => e.1 % 8 = 4) }
  | _ => s

/-- The counters of a page that a statistics reset writes, PG_ERRCNT among them: an increment that meets the reset is lost, while a W1C bit set
at that moment stays (R24, R737). -/
def countsReset (p : Page) (s : State) : State := wr p 0x01C 0 (clearAll false p p.table s)

/-- STATS_RESET (R737): PG_CTRL.RESET of a page is written with 1. -/
def statsResetOf (page : Nat) (s : State) : State :=
  match pageOf page with
  | none => s
  | some (p, _) => statsReset p s

end Sys2Proof.Machine
end

