-- ==== Sys2Proof/Machine/Whistle.lean ====
section
/-! DEFINITION. Whistle (R665–R678): timers, claims, completions, set-pendings and configuration; and the snapshots of the event
counters (R679–R684). -/

namespace Sys2Proof.Machine

/-- Sources whose state differs from reset, rising. -/
def srcList (s : State) : List Nat :=
  (s.regs.map (·.1)).filterMap (fun k =>
    let p := k / 4096
    let o := k % 4096
    if 2 ≤ p ∧ p ≤ 9 ∧ 0x900 ≤ o ∧ o < 0xD00 then some ((p - 2) * 256 + (o - 0x900) / 4) else none)

/-- A source's state (R678): 0 IDLE, 1 PENDING, 2 ACTIVE. -/
def srcState (n : Nat) (s : State) : Nat := rf (srcPage n) (srcOff 0x900 n) 31 30 s

/-- A source's accumulator. -/
def srcAcc (n : Nat) (s : State) : Nat := rf (srcPage n) (srcOff 0x900 n) 15 0 s

/-- A source's target. -/
def srcTarget (n : Nat) (s : State) : Nat := rf (srcPage n) (srcOff 0x100 n) 19 16 s

/-- A source's priority. -/
def srcPrio (n : Nat) (s : State) : Nat := rf (srcPage n) (srcOff 0x100 n) 26 24 s

/-- Lowest priority that a target is offered (R673). -/
def whiThr (t : Nat) (s : State) : Nat := rf pgWhi (0x148 + 16 * t) 2 0 s

/-- PENDING sources of a target. -/
def pendOf (t : Nat) (s : State) : List Nat := (srcList s).filter (fun n => decide (srcState n s = 1 ∧ srcTarget n s = t))

/-- Whether a core's interrupt input is asserted (R671). -/
def coreIrq (t : Nat) (s : State) : Bool := (pendOf t s).any (fun n => decide (whiThr t s ≤ srcPrio n s))

/-- The source that a claim of target t takes (R670, R673): the highest priority at or above the threshold, the lowest number on a tie;
none while delivery is off. -/
def claimable (t : Nat) (s : State) : Option Nat :=
  if !rb pgWhi 0x100 0 s then none
  else (pendOf t s).foldl (fun a n =>
    if srcPrio n s < whiThr t s then a
    else match a with
      | none => some n
      | some m => if srcPrio m s < srcPrio n s then some n else a) none

/-- A claim marks the source ACTIVE, clears ACC, stops the timer and is counted as a delivery (R669, R680). -/
def claimSrc (n : Nat) (s : State) : State :=
  let s := wr (srcPage n) (srcOff 0x900 n) (word (2 * 2 ^ 30)) { s with
    whiDue := SMap.set 0 s.whiDue n 0, whiWait := s.whiWait.filter (· ≠ n) }
  countDie 0xB8 0 1 s

/-- A read of WHI_CLAIMt (R673, R677). -/
def claimRead (t : Nat) (s : State) : Word × State :=
  match claimable t s with
  | none => (0, s)
  | some n => (word (2 ^ 31 + srcPrio n s * 2 ^ 28 + srcAcc n s * 2 ^ 12 + n), claimSrc n s)

/-- WHI_CLAIM (R673). -/
def execWhiClaim (q : Requester) (t : Nat) (s : State) : Host.Outcome State Fault Refusal := .next (guardRead q pgWhi (claimRead t) s)

/-- A completion returns an ACTIVE source to IDLE, or to PENDING where it has cause (R669, R675). -/
def completeSrc (n : Nat) (s : State) : State := srcTry n (wf (srcPage n) (srcOff 0x900 n) 31 30 0 s)

/-- DEVICE_CLAIM (R671–R673): the device claims for HOST, MGMT or TWIN and sends; nothing is sent during SERVICE. A full event queue
leaves HOST sources PENDING (R583). A TWIN delivery is a record in the twin mailbox, and completes once it is written. -/
def execDeviceClaim (t : Nat) (s : State) : Host.Outcome State Fault Refusal :=
  match claimable t s with
  | none => .next s
  | some n =>
    let acc := srcAcc n s
    if inService s then .next s
    else match t with
    | 4 => .next (if s.events.length < 4096 then pushEvent 1 (leBytes 2 n ++ leBytes 2 acc) (claimSrc n s) else s)
    | 5 => .next (say .i3c [0x57, n] (say .mgmt [1, n, acc] (claimSrc n s)))
    | 6 =>
      if !mirrors s then .next s
      else
        let k := SMap.get 0 s.twinDel n + 1
        let s := claimSrc n { s with twinDel := SMap.set 0 s.twinDel n (k % 2 ^ 32) }
        let rec_ := leBytes 2 n ++ leBytes 2 acc ++ leBytes 4 k ++ leBytes 8 (now s) ++ leBytes 16 0
        .next (completeSrc n (stackWrite (twnSrc s + twnLen s - 65536 + 32 * n) rec_ s))
    | _ => .next s

/-- COALESCE_TIMER (R669): a timer whose time has come expires; not due, nothing happens. -/
def execCoalesceTimer (src : Nat) (s : State) : Host.Outcome State Fault Refusal :=
  let p := srcPage src
  let o := srcOff 0x900 src
  if 2047 < src ∨ !rb p o 29 s ∨ now s < SMap.get 0 s.whiDue src then .next s
  else .next (srcTry src (wb p o 28 true (wb p o 29 false { s with whiDue := SMap.set 0 s.whiDue src 0 })))

/-- A write of WHI_COMPLETEt (R674): one of a source not ACTIVE for t is ignored and counted. A number above 2,047 has reserved bits. -/
def completeWrite (t src : Nat) (s : State) : State :=
  let s := recIf (decide (2047 < src)) pgWhi errRESWR s
  if 2047 < src ∨ srcState src s ≠ 2 ∨ srcTarget src s ≠ t then countDie 0xB9 0 1 (bump pgWhi 0x108 31 0 1 s) else completeSrc src s

/-- WHI_COMPLETE (R674). -/
def execWhiComplete (q : Requester) (t src : Nat) (s : State) : Host.Outcome State Fault Refusal :=
  .next (guardWrite q pgWhi (0x144 + 16 * t) (completeWrite t src) s)

/-- A write of WHI_SETPEND (R675). -/
def setpendWrite (src : Nat) (s : State) : State :=
  let p := srcPage src
  let o := srcOff 0x900 src
  let s1 := wf p o 15 0 (satAdd 16 (srcAcc src s) 1) s
  let wait (z : State) : State := { z with whiWait := src :: z.whiWait.filter (· ≠ src) }
  match srcState src s with
  | 0 => if rb pgWhi 0x100 0 s then srcTry src (wait s1) else wait (wb p o 28 true s1)
  | 1 => s1
  | _ => wait (wb p o 28 true (wb p o 29 false { s1 with whiDue := SMap.set 0 s1.whiDue src 0 }))

/-- WHI_SETPEND (R675). -/
def execWhiSetpend (q : Requester) (src : Nat) (s : State) : Host.Outcome State Fault Refusal :=
  .next (guardWrite q pgWhi 0x104 (setpendWrite (src % 2048)) s)

/-- WHI_CTRL.EN is set to a value; at 1 every IDLE source with cause enters PENDING (R670). -/
def whiEnWrite (b : Bool) (s : State) : State :=
  let s := wb pgWhi 0x100 0 b s
  if b then (srcList s).foldl (fun s n => srcTry n s) s else s

/-- WHI_ENABLE (R670): WHI_CTRL.EN, an RWL field, is written with 1. -/
def execWhiEnable (q : Requester) (s : State) : Host.Outcome State Fault Refusal :=
  .next (guardWrite q pgWhi 0x100 (fun s => if locked pgWhi s then recordErr pgWhi errLOCKWR s else whiEnWrite true s) s)

/-- A write of WHI_CFGi (R671, R676, R678): TARGET and PRIO of a PENDING or ACTIVE source stay; an IDLE source with cause enters PENDING
at once (R670). -/
def cfgWrite (src : Nat) (v : Word) (s : State) : State :=
  let busy := decide (srcState src s ≠ 0)
  srcTry src (putReg (srcPage src) (srcOff 0x100 src) (fun lo => busy && decide (lo = 24 ∨ lo = 16)) v s)

/-- WHI_CFG_WRITE (R676). -/
def execWhiCfgWrite (q : Requester) (src : Nat) (v : Word) (s : State) : Host.Outcome State Fault Refusal :=
  .next (guardWrite q (srcPage (src % 2048)) (srcOff 0x100 (src % 2048)) (cfgWrite (src % 2048) v) s)

/-- A write of WHI_TIMEi: a running timer expires TIME µs after its start (R669, R676). -/
def timeWrite (src : Nat) (v : Word) (s : State) : State :=
  let p := srcPage src
  let o := srcOff 0x500 src
  let old := rf p o 15 0 s
  let s := putPlain p o v s
  if rb p (srcOff 0x900 src) 29 s then
    { s with whiDue := SMap.set 0 s.whiDue src (SMap.get 0 s.whiDue src - usec * old + usec * rf p o 15 0 s) }
  else s

-- Snapshots (R682) ------------------------------------------------------------------------------------------------

/-- Copy the counters of a page into its snapshot registers at a rack time (R682, R684). -/
def snapPage (p : Page) (num valOff snpOff at_ : Nat) (s : State) : State :=
  if rd64 p 0x10C s = at_ ∧ at_ ≠ 0 then s
  else
    let s := foldRange num (fun i s =>
      let v := rd64 p (valOff + 8 * i) s
      wr64 p (snpOff + 8 * i) (v % 2 ^ 48 + b2n (s.ovfNext.contains (p.base + i)) * 2 ^ 48) s) s
    wr64 p 0x10C at_ { s with ovfNext := s.ovfNext.filter (fun k => decide (k < p.base ∨ p.base + num ≤ k)) }

/-- A snapshot of the die counters. -/
def snapDie (at_ : Nat) (s : State) : State := snapPage pgCnt 32 0x200 0x300 at_ s

/-- A snapshot of a region's counters. -/
def snapRgn (r at_ : Nat) (s : State) : State := snapPage (pgRcn r) 8 0x180 0x1C0 at_ s

/-- EPOCH_SNAPSHOT (R682): at an epoch boundary, the die's and every region's counters whose EPOCHSNAP is 1. A page copied at this rack
time is not copied again. -/
def execEpochSnapshot (s : State) : Host.Outcome State Fault Refusal :=
  if now s % epochLen ≠ 0 then .next s
  else
    let s := if rb pgCnt 0x100 0 s then snapDie (now s) s else s
    .next (foldRange 64 (fun r s => if rb (pgRcn r) 0x100 0 s then snapRgn r (now s) s else s) s)

/-- CNT_SNAPCMD (R682): a snapshot is armed 100 periods ahead, or merged with the one armed. -/
def execCntSnapcmd (q : Requester) (s : State) : Host.Outcome State Fault Refusal := .next (guardWrite q pgCnt 0x104 armSnapshot s)

/-- COMMAND_SNAPSHOT (R682): at the armed rack time every counter is copied, and CNT_SNAP fires. -/
def execCommandSnapshot (s : State) : Host.Outcome State Fault Refusal :=
  match s.snapAt with
  | none => .next s
  | some t =>
    if now s < t then .next s
    else .next (fire 100 (foldRange 64 (fun r s => snapRgn r t s) (snapDie t { s with snapAt := none })))

end Sys2Proof.Machine
end

