-- ==== Sys2Proof/Machine/Boot.lean ====
section
/-! DEFINITION. The boot ROM, identity and operator keys (R690–R701), management commands (R702, R703), start-up (R704–R706, R756), and
the fall of RST_N and of the supplies. -/

namespace Sys2Proof.Machine

/-- A management response: OP with bit 15 set, STATUS and payload (R702). Nothing is sent during SERVICE (R609). -/
def mgmtSay (op status : Nat) (body : List Byte) (s : State) : State :=
  if inService s then s else sayBytes .mgmt [0x8000 + op, status] body s

/-- The stage of start-up in force (R716). -/
def stageNow (s : State) : Nat := rf pgDie 0x104 27 24 s

/-- A command of the management port: it is served from the end of stage 2 (R706); before, it changes nothing. -/
def mgmtServed (f : State → State) (s : State) : Host.Outcome State Fault Refusal := .next (if 3 ≤ stageNow s then f s else s)

/-- Copies of the Logbook in service (R688). -/
def logCopies (s : State) : Nat := ((List.range 3).filter (fun i => rb pgLog 0x100 i s)).length

-- The ROM (R690–R692) ------------------------------------------------------------------------------------------------

/-- Bytes of one vendor key and of the key set (R690). -/
def keyLen : Nat := 2592
def keysetLen : Nat := 4 * keyLen

/-- The body of a flash copy, by its LEN. -/
def copyBody (f : FlashCopy) : List Byte := slice f.body 0 (leAt f.header 16 8 - 64 - keysetLen - sigLen)

/-- The signed digest of a copy (R690). -/
def copyDigest (f : FlashCopy) : List Byte := sha3 (slice f.header 0 64 ++ slice f.keyset 0 keysetLen ++ copyBody f)

/-- Whether a copy's header is right (R690). -/
def headerOk (f : FlashCopy) : Bool :=
  let h := f.header
  let n := leAt h 16 8
  decide (leAt h 0 4 = 0x4C575A4D ∧ leAt h 4 2 = 1 ∧ leAt h 6 1 < 4 ∧ leAt h 7 1 < 16 ∧ leAt h 10 6 = 0 ∧ leAt h 24 40 = 0 ∧
    15123 ≤ n ∧ n ≤ 2 ^ 24)

/-- The result of trying a copy (R691). -/
def copyCode (f : FlashCopy) (s : State) : Nat :=
  let k := leAt f.header 6 1
  if !f.responds then 2
  else if !headerOk f then 3
  else if sha3 (slice f.keyset 0 keysetLen) ≠ Config.keysetDigest then 4
  else if rb pgSec 0x100 (12 + k) s then 5
  else if leAt f.header 8 2 < rf pgSec 0x104 15 0 s then 6
  else if !Config.mldsaVerify (slice f.keyset (keyLen * k) keyLen) (copyDigest f) (slice f.sig 0 sigLen) then 7
  else 0

/-- What MEAS2 is extended with (R697). -/
def secDigest (s : State) : List Byte :=
  let root := (List.range 16).flatMap (fun i => leBytes 4 (rd pgSec (0x140 + 4 * i) s).toNat)
  sha3 (leBytes 2 (rf pgSec 0x104 15 0 s) ++ leBytes 1 (rf pgSec 0x100 15 12 s) ++ leBytes 4 (rd pgSec 0x110 s).toNat ++ root)

/-- A copy boots (R691, R697, R718): its number, key and SVN are noted, and the ROM measures it. -/
def bootCopy (b : Nat) (f : FlashCopy) (s : State) : State :=
  let svn := leAt f.header 8 2
  let s := wf pgSec 0x100 23 23 b (wf pgSec 0x100 19 18 (leAt f.header 6 1) (wf pgSec 0x104 31 16 svn s))
  let s := wb pgSec 0x100 20 (decide (rf pgSec 0x104 15 0 s < svn)) { s with boot := { s.boot with revoke := leAt f.header 7 1 } }
  extendMeas 2 (secDigest s) (extendMeas 1 (copyDigest f) s)

/-- The ROM halts (R692): only core L0 and the I3C target are powered. -/
def romHalt (s : State) : State :=
  foldRange 64 (fun r s => updRgn r (fun x => { x with off := true }) s) { s with boot := { s.boot with halted := true } }

/-- Set the result code of copy b. -/
def setCopyCode (b code : Nat) (s : State) : State := if b = 0 then wf pgSec 0x100 31 28 code s else wf pgSec 0x100 27 24 code s

/-- The ROM runs (R691, R692, R697): the preferred copy first, then the other; an unreadable security record tries none. -/
def romRun (fa fb : FlashCopy) (s : State) : State :=
  let s := extendMeas 0 Config.romDigest s
  let first := s.boot.prefer % 2
  let copy (b : Nat) : FlashCopy := if b = 0 then fa else fb
  if logCopies s < 2 then romHalt (setCopyCode 0 8 (setCopyCode 1 8 s))
  else
    let c1 := copyCode (copy first) s
    let s := setCopyCode first c1 s
    if c1 = 0 then bootCopy first (copy first) s
    else
      let c2 := copyCode (copy (1 - first)) s
      let s := setCopyCode (1 - first) c2 s
      if c2 = 0 then bootCopy (1 - first) (copy (1 - first)) s else romHalt s

-- Identity and keys (R693–R701) ------------------------------------------------------------------------------------------

/-- Stage 3 derives the identity (R453, R694–R696): where the key agrees with the Logbook's, IDOK is 1 and the private key is held. -/
def deriveIdentity (s : State) : State :=
  let seed := (sha3 (slice Config.pufResponse 0 32 ++ leBytes 4 0x4D5A5631)).take 32
  let id := leNat ((sha3 Config.identityPub).take 8)
  let ok := Config.identityKey seed == Config.identityPub
  wr64 pgSec 0x108 id (wb pgSec 0x100 22 ok { s with boot := { s.boot with keyHeld := ok } })

/-- The report of R698 for a nonce; none where the device may not sign (R695, R696). -/
def attestReport (nonce : List Byte) (s : State) : Option (List Byte) :=
  if !rb pgSec 0x100 22 s || !s.boot.keyHeld then none
  else
    let z : List Byte := List.replicate 64 0
    let bootByte := rf pgSec 0x100 23 23 s + 2 * rf pgSec 0x100 19 18 s
    let keys := b2n (rb pgSec 0x100 21 s) + 2 * (Config.endKey % 4)
    let coord := if rb pgTop 0x100 31 s then rf pgTop 0x100 9 0 s else 0xFFFF
    let root := (List.range 16).flatMap (fun i => leBytes 4 (rd pgSec (0x140 + 4 * i) s).toNat)
    let head := leBytes 4 0x54415A4D ++ leBytes 2 1 ++ leBytes 1 1 ++ leBytes 1 1 ++ leBytes 4 (rd pgDie 0x100 s).toNat ++
      leBytes 8 (rd64 pgSec 0x108 s) ++ leBytes 2 (rf pgSec 0x104 31 16 s) ++ leBytes 2 (rf pgSec 0x104 15 0 s) ++ leBytes 1 bootByte ++
      leBytes 1 keys ++ leBytes 2 coord ++ leBytes 4 (rd pgSec 0x110 s).toNat ++ slice nonce 0 32 ++ leBytes 8 (now s) ++ root
    let body := head ++ (List.range 8).flatMap (fun m => SMap.get z s.meas m) ++ slice Config.identityPub 0 keyLen ++
      slice Config.endorsement 0 sigLen
    some (body ++ slice (Config.mldsaSign (sha3 body)) 0 sigLen)

/-- ATTEST over the management port (R698, R703). -/
def execAttest (nonce : List Byte) (s : State) : Host.Outcome State Fault Refusal :=
  mgmtServed (fun s =>
    if nonce.length ≠ 32 then mgmtSay 0x0101 stBADMSG [] s
    else match attestReport nonce s with
      | none => mgmtSay 0x0101 stDENIED [] s
      | some r => mgmtSay 0x0101 stOK r s) s

/-- Store the operator key with a generation (R699–R701): root hash, OPKEY, and the measurements. -/
def storeKey (key : List Byte) (gen : Nat) (s : State) : State :=
  let root := sha3 key
  let s := foldRange 16 (fun i s => wr pgSec (0x140 + 4 * i) (word (leAt root (4 * i) 4)) s) { s with opKey := key }
  let s := logWritten (wb pgSec 0x100 21 true (wr pgSec 0x110 (word gen) s))
  extendMeas 6 root (extendMeas 2 (secDigest s) s)

/-- PROVISION (R700): only while no key is provisioned. -/
def execProvision (key : List Byte) (s : State) : Host.Outcome State Fault Refusal :=
  mgmtServed (fun s =>
    if key.length ≠ keyLen then mgmtSay 0x0102 stBADMSG [] s
    else if !s.opKey.isEmpty then mgmtSay 0x0102 stDENIED [] s
    else mgmtSay 0x0102 stOK [] (storeKey key 1 s)) s

/-- ROTATE (R700): under a signature by the current key over SHA3-512(new key ‖ g + 1). -/
def execRotate (key sig : List Byte) (s : State) : Host.Outcome State Fault Refusal :=
  mgmtServed (fun s =>
    let g := (rd pgSec 0x110 s).toNat + 1
    if key.length ≠ keyLen ∨ sig.length ≠ sigLen then mgmtSay 0x0103 stBADMSG [] s
    else if s.opKey.isEmpty || !Config.mldsaVerify s.opKey (sha3 (key ++ leBytes 4 g)) sig then mgmtSay 0x0103 stDENIED [] s
    else mgmtSay 0x0103 stOK [] (storeKey key g s)) s

/-- COMMITSVN (R693): the counter, the revoked keys and the preferred copy; a commit that would lower the counter or revoke the running
copy's own key is refused. -/
def execCommitsvn (s : State) : Host.Outcome State Fault Refusal :=
  mgmtServed (fun s =>
    let run := rf pgSec 0x104 31 16 s
    if run < rf pgSec 0x104 15 0 s ∨ bit s.boot.revoke (rf pgSec 0x100 19 18 s) then mgmtSay 0x0104 stDENIED [] s
    else
      let revoked := Nat.lor (rf pgSec 0x100 15 12 s) (s.boot.revoke % 16)
      let s := wb pgSec 0x100 20 false (wf pgSec 0x100 15 12 revoked (wf pgSec 0x104 15 0 run s))
      let s := logWritten { s with boot := { s.boot with prefer := rf pgSec 0x100 23 23 s } }
      mgmtSay 0x0104 stOK [] (extendMeas 2 (secDigest s) s)) s

/-- ERRACK (R526, R703): the named record and every record before it are received. -/
def execErrack (seq : Nat) (s : State) : Host.Outcome State Fault Refusal :=
  mgmtServed (fun s => mgmtSay 0x0107 stOK [] { s with records := s.records.filter (fun e => decide (seq < e.seq)) }) s

-- The claimed coordinate and the roll call (R707, R708) ----------------------------------------------------------------------

/-- The word of the claimed coordinate in TOP_COORD (R707), VALID 0: from the straps, or the patch entry with its axis lengths. None where
X or Y is above 31. -/
def claimWord (s : State) : Option Nat :=
  let board := rf pgDie 0x108 13 8 s
  let dev := rf pgDie 0x108 2 0 s
  let patch := rb pgTop 0x300 31 s
  let bx := if patch then rf pgTop 0x300 4 0 s else board % 8 * 4
  let by_ := if patch then rf pgTop 0x300 9 5 s else board / 8 * 2
  let x := bx + dev % 4
  let y := by_ + dev / 4
  let axes := if patch then rf pgTop 0x300 19 10 s * 2 ^ 10 else 0
  if 31 < x ∨ 31 < y then none else some (x + 32 * y + axes)

/-- Change TOP_COORD; each change raises TOP_CHG (R712). -/
def setCoord (w : Nat) (s : State) : State := if (rd pgTop 0x100 s).toNat = w then s else fire 78 (wr pgTop 0x100 (word w) s)

/-- Firmware writes the claimed coordinate; one that cannot be claimed is recorded (R707). -/
def writeClaim (s : State) : State :=
  match claimWord s with
  | none => recordErr pgTop errBLOCK s
  | some w => setCoord w s

/-- Whether the device takes part in the roll call: its claim is formed (R707). -/
def claims (s : State) : Bool := decide (5 ≤ stageNow s) && (claimWord s).isSome

/-- Whether the device is trailhead by its coordinate or by TRAIL (R708). -/
def isTrailhead (s : State) : Bool := claims s && (decide (myCoord s = 0) || rb pgTop 0x304 29 s)

/-- The device's own report (R709). -/
def ownReport (s : State) : RollReport :=
  { trail := s.roll.trail, ident := myIdent s, x := rf pgTop 0x100 4 0 s, y := rf pgTop 0x100 9 5 s,
    ports := sumN ((List.range 5).map (fun p => b2n (portUp p s) * 2 ^ p)), patch := rb pgTop 0x300 31 s,
    lxm1 := if rb pgTop 0x300 31 s then rf pgTop 0x300 14 10 s else 0, lym1 := if rb pgTop 0x300 31 s then rf pgTop 0x300 19 15 s else 0,
    svn := rf pgSec 0x104 31 16 s, nbrs := (List.range 5).map (fun p => if rb (pgRlp p) 0x108 31 s then rd64 (pgRlp p) 0x10C s else 0) }

/-- Send the CALL on every port that is UP or DEGRADED (R710 orders 1 and 2). -/
def callAll (s : State) : State := foldRange 5 (fun p s => if portUp p s then sendCall p s else s) s

/-- The trailhead starts its roll call (R708, R710): it holds its own report. -/
def startRoll (s : State) : State :=
  let s := { s with roll := { Roll.none with trail := myIdent s, lastAt := now s } }
  let s := { s with roll := { s.roll with reports := [ownReport s] } }
  callAll (wf pgTop 0x304 28 24 0x1F (wf pgTop 0x304 31 30 1 s))

/-- PATCH (R703, R707): TOP_PATCH is written; a changed claim is written and IDENT leaves again on every port that is up. -/
def execPatch (bx by_ lxm1 lym1 : Nat) (s : State) : Host.Outcome State Fault Refusal :=
  mgmtServed (fun s =>
    if 31 < bx ∨ 31 < by_ ∨ 31 < lxm1 ∨ 31 < lym1 then mgmtSay 0x0105 stBADMSG [] s
    else if rb pgTop 0x100 31 s then mgmtSay 0x0105 stDENIED [] s
    else
      let old := claimWord s
      let s := wr pgTop 0x300 (word (2 ^ 31 + lym1 * 2 ^ 15 + lxm1 * 2 ^ 10 + by_ * 2 ^ 5 + bx)) s
      let s := if 5 ≤ stageNow s ∧ claimWord s ≠ old then
          foldRange 5 (fun p s => if portUp p s then sendIdent p s else s) (writeClaim s)
        else s
      mgmtSay 0x0105 stOK [] s) s

/-- TRAIL (R703, R708): makes the device trailhead, which starts its roll call once stage 5 has ended, or releases it. -/
def execTrail (set : Bool) (s : State) : Host.Outcome State Fault Refusal :=
  mgmtServed (fun s =>
    if rb pgTop 0x100 31 s then mgmtSay 0x0106 stDENIED [] s
    else
      let s := wb pgTop 0x304 29 set s
      let s := if set then (if rb pgDie 0x104 30 s && claims s then startRoll s else s)
        else if isTrailhead s ∨ rf pgTop 0x304 31 30 s ≠ 1 then s
        else wf pgTop 0x304 31 30 0 { s with roll := Roll.none }
      mgmtSay 0x0106 stOK [] s) s

-- Start-up (R704–R706, R438, R763) -----------------------------------------------------------------------------------------------

/-- The warm CHECKING state of a unit-plane under a record (R438 order 1). -/
def warmPlane (k : Nat) (s : State) : State :=
  match physOf (k / 2 / 64) (k / 2 % 64) s with
  | none => s
  | some slot => updPlane (k / 2 / 64) slot (k % 2) (fun y =>
      if y.started then { y with st := .blank } else { y with st := .checking, goal := [], kind := .load }) s

/-- The tolerances, format and JOIN that the Logbook keeps of a unit-plane under a record take effect (R427, R428, R438; DEDUCED, entry 95). -/
def restorePlane (c slot p : Nat) (s : State) : State :=
  match ((unitAt c slot s).plane p).logged with
  | none => s
  | some l =>
    let u := Page.unit c slot
    wb u 0x80C 0 l.join (wf u 0x80C (if p = 0 then 6 else 10) (if p = 0 then 4 else 8) l.fmt (wr u (0x810 + 4 * p) l.tol s))

/-- A residency record as the Logbook reads at start-up (R687, R688): with two copies that agree, a copy that does not is written again and counted;
otherwise the record is unreadable, treated as absent, and reported. -/
def readRecord (e : Nat × ResRec) (s : State) : State :=
  let on := (List.range 3).filter (fun i => rb pgLog 0x100 i s)
  let odd := on.filter (fun i => e.2.odd.contains i)
  if odd.isEmpty then s
  else if on.length < odd.length + 2 then
    writeRec { kind := 0x0A, detail := leBytes 1 pgLog.cls.1 ++ leBytes 1 pgLog.cls.2 }
      (wb pgLog 0x100 3 true { s with resrecs := SMap.set ResRec.free s.resrecs e.1 ResRec.free })
  else updRes e.1 (fun r => { r with odd := r.odd.filter (fun i => !on.contains i) }) (bump pgLog 0x104 31 0 odd.length s)

/-- Stage 3 reads the residency records (R687, R688). -/
def readResidency (s : State) : State := s.resrecs.foldl (fun s e => readRecord e s) s

/-- Residency as the Logbook has it (R86, R438): unit-planes under a committed record enter CHECKING, every other plane is BLANK; a record whose load
was not committed is free, or PARTIAL again where it had unit-planes already (R428, R439). -/
def restoreResidency (s : State) : State :=
  let again (e : Nat × ResRec) : Nat × ResRec := if e.2.st = 3 then (e.1, { e.2 with st := 2 }) else e
  let s := { s with resrecs := (s.resrecs.map again).filter (fun e => !e.2.members.isEmpty) }
  let settle (y : Plane) : Plane := { y with st := .blank, goal := [], pulses := 0 }
  let s := (s.units.map (·.1)).foldl (fun s k => updUnit (k / 128) (k % 128) (fun x => { x with p0 := settle x.p0, p1 := settle x.p1 }) s) s
  let s := (s.resrecs.flatMap (fun e => e.2.members)).foldl (fun s k => warmPlane k s) s
  (s.resrecs.flatMap (fun e => e.2.members)).foldl (fun s k => match physOf (k / 2 / 64) (k / 2 % 64) s with
    | none => s
    | some slot => restorePlane (k / 2 / 64) slot (k % 2) s) s

/-- Stage 4 brings up the stacks (R373, R763): the trained rate, 0 where training failed; contents are kept only where the stack kept
them. -/
def startStacks (kept rates : List Nat) (s : State) : State :=
  let s := { s with mem := s.mem.filter (fun e => kept.contains (e.1 / 2 ^ 36)) }
  foldRange 20 (fun n s =>
    let r := nth 0 rates n % 5
    wb (pgStk n) 0x104 0 (decide (r ≠ 0)) (wb (pgStk n) 0x104 2 false (wf (pgStk n) 0x104 11 8 r s))) s

/-- Whether a region's start-up calibration is complete (R182, R204). -/
def baseDone (r : Nat) (s : State) : Bool := rb (pgTrm r) 0x104 1 s

/-- Whether the ports that are enabled are up (R706). -/
def portsUp (s : State) : Bool :=
  (List.range 5).all (fun p => !rb (pgRlp p) 0x100 0 s || portUp p s) && (List.range 8).all (fun e => !rb (pgEth e) 0x100 0 s || rb (pgEth e) 0x104 0 s) &&
    (!rb pgDzt 0x100 0 s || dzUp s)

/-- Enter a stage (R704, R716). -/
def setStage (n : Nat) (s : State) : State := wf pgDie 0x104 27 24 n { s with boot := { s.boot with stageAt := now s } }

/-- STARTUP_STAGE_COMPLETE (R704): the stage in force ends and the next begins. Stage 1 ends with every region powered; stage 2 runs the
ROM on what the flash answers; stage 3 reads the Logbook; stage 4 ends once every region's start-up calibration is complete, with the
stacks' kept contents and trained rates; stage 5 ends with the ports up or after 60 ms. -/
def execStartupStageComplete (copyA copyB : FlashCopy) (kept rates : List Nat) (s : State) : Host.Outcome State Fault Refusal :=
  if !s.enabled || s.boot.waiting || s.boot.halted || inService s then .next s
  else match stageNow s with
    | 1 => .next (if s.boot.rows < 8 then s else setStage 2 (wb pgClk 0x100 5 true s))
    | 2 =>
      let s := romRun copyA copyB s
      .next (if s.boot.halted then s else setStage 3 s)
    | 3 => .next (setStage 4 (restoreResidency (readResidency (deriveIdentity (wb pgSec 0x100 21 (!s.opKey.isEmpty) s)))))
    | 4 =>
      if !((List.range 64).all (fun r => baseDone r s)) then .next s
      else
        let s := foldRange 64 (fun r s => wb (pgSns r) 0x100 1 false s) (startStacks kept rates s)
        .next (writeClaim (setStage 5 s))
    | 5 =>
      if !portsUp s ∧ now s < s.boot.stageAt + 60 * msec then .next s
      else
        let ms := min 65535 ((now s - s.boot.roseAt) / msec)
        let s := wb pgDie 0x104 30 true (wf pgDie 0x104 15 0 ms { s with boot := { s.boot with readyAt := now s } })
        let s := setStage 6 s
        .next (if isTrailhead s ∧ rf pgTop 0x304 31 30 s ≠ 2 then startRoll s else s)
    | _ => .next s

-- RST_N and the supplies (R439, R686, R696, R705, R756) ---------------------------------------------------------------------------

/-- A plane without power: cells and parameter set stay (R3, R52), and what the Logbook keeps of it. It reads as BLANK, or, with a commit and under a
record, as CHECKING (R86, R102, R438). -/
def coldPlane (recorded : Bool) (y : Plane) : Plane :=
  { Plane.empty with st := if y.started ∨ !recorded then .blank else .checking, rows := y.rows, par := y.par, started := y.started, logged := y.logged }

/-- A slot without power (R705): a fence and a substitution are in the repair map. -/
def coldSlot (c slot : Nat) (x : USlot) (s : State) : USlot :=
  let sub := (List.range 4).any (fun n => let w := rd (.clu c) (0x180 + 4 * n) s
    decide (getF w 18 16 = 3 ∧ (slot = 64 + n ∨ getF w 5 0 = slot)))
  let serves := if sub then x.serves else (USlot.fresh slot).serves
  let rec_ (p : Nat) : Bool := match serves with
    | none => false
    | some l => (recOf (upKey c l p) s).isSome
  { USlot.fresh slot with p0 := coldPlane (rec_ 0) x.p0, p1 := coldPlane (rec_ 1) x.p1, fenced := x.fenced, serves := serves }

/-- Register words that the Logbook keeps (R86, R111, R376, R427, R526, R686, R705): of a unit its margin floor
and programming times; fences and substitutions; the upper regulator limit; group modes; the security record; the record number. -/
def coldReg (s : State) (key : Nat) : Option Word :=
  let w := SMap.get 0 s.regs key
  if 2 ^ 48 ≤ key then none
  else if 2 ^ 40 ≤ key then
    let k := (key - 2 ^ 40) / 4096
    let off := key % 4096
    let fenced := (unitAt (k / 128) (k % 128) s).fenced
    if 0xB6C ≤ off ∧ off < 0xB7C then some w
    else if off = 0x818 then some (word (getF w 6 4 * 0x111))
    else if off = 0x804 ∧ fenced then some (setB ((Page.unit 0 0).resetWord 0x804) 0 true)
    else none
  else if 2 ^ 33 ≤ key then
    let off := key % 4096
    if 0x180 ≤ off ∧ off < 0x190 ∧ getF w 18 16 = 3 then some w
    else if off = 0x314 ∧ getB w 16 then some (setB ((Page.clu 0).resetWord 0x314) 16 true)
    else none
  else if 2 ^ 32 ≤ key then
    if key % 2 ^ 20 = 0x5100 then some (setF ((pgIvr 0).resetWord 0x100) 13 8 (getF w 13 8)) else none
  else if 0xA0000 ≤ key ∧ key < 0xB4000 ∧ key % 4096 = 0x118 then some w
  else if key = 0x50100 then some (setF ((Page.die 0x50).resetWord 0x100) 15 12 (getF w 15 12))
  else if key = 0x50104 then some (setF w 31 16 0)
  else if key = 0x50110 ∨ (0x50140 ≤ key ∧ key < 0x50180) then some w
  else if key = 0x250 ∨ key = 0x254 then some w
  else none

/-- The page and offset of a key of the register table, for the words that coldReg keeps. -/
def keyPage (key : Nat) : Page × Nat :=
  if 2 ^ 40 ≤ key then
    let k := (key - 2 ^ 40) / 4096
    (.unit (k / 128) (k % 128), key % 4096)
  else if 2 ^ 33 ≤ key then (.clu ((key - 2 ^ 33) / 4096), key % 4096)
  else if 2 ^ 32 ≤ key then (.rgn ((key - 2 ^ 32) / 2 ^ 20) (key % 2 ^ 20 / 4096), key % 4096)
  else (.die (key / 4096), key % 4096)

/-- The trims, baselines and retargets of the Logbook (R182, R196–R198); EFF is BASE with BAND 0 (R197, R205). -/
def loadCoefs (s : State) : State :=
  s.logCoef.foldl (fun s e =>
    let u := Page.unit (e.1 / 128) (e.1 % 128)
    let at_ (i : Nat) : Word := nth 0 e.2 i
    let s := foldRange 136 (fun i s => wr u (0x900 + 4 * i) (at_ i) s) s
    let drv (p : Nat) (w : Word) (s : State) : State := wf u (0xB40 + 4 * p) 25 17 (tc 9 (sx 8 (getF w 7 0))) (wf u (0xB40 + 4 * p) 7 0 (getF w 7 0) s)
    wr u 0xB4C (at_ 139) (wr u 0xB48 (at_ 138) (drv 1 (at_ 137) (drv 0 (at_ 136) s)))) s

/-- The wear counts of the Logbook (R111). -/
def loadWear (s : State) : State :=
  s.logWear.foldl (fun s e => wr (.unit (e.1 / 2 / 128) (e.1 / 2 % 128)) (0x834 + 4 * (e.1 % 2)) (word e.2) s) s

/-- The device without power or under RST_N: State.reset with what the cells, the Logbook and stacks in self refresh keep. -/
def coldState (keepMem : Bool) (s : State) : State :=
  let units : SMap USlot := s.units.foldl (fun m e =>
    SMap.set (USlot.fresh (e.1 % 128)) m e.1 (coldSlot (e.1 / 128) (e.1 % 128) e.2 s)) []
  let clus : SMap Cluster := s.clus.foldl (fun m e =>
    if e.2.fenceReq || e.2.fenced then SMap.set Cluster.empty m e.1 { Cluster.empty with fenceReq := true, fenced := true } else m) []
  let stks : SMap Stk := s.stks.foldl (fun m e => SMap.set Stk.empty m e.1 { Stk.empty with mapped := e.2.mapped, spent := e.2.spent }) []
  let cold : State := { State.reset with
    free := s.free, units := units, clus := clus, stks := stks, resrecs := s.resrecs, logCoef := s.logCoef, logWear := s.logWear, opKey := s.opKey,
    mem := if keepMem then s.mem.filter (fun e => rb (pgStk (e.1 / 2 ^ 36)) 0x104 2 s) else [],
    records := s.records.map (fun e => { e with sentAt := 0 }), boot := { Boot.start with prefer := s.boot.prefer },
    svcLow := s.svcLow, out := s.out, pending := s.pending }
  loadWear <| loadCoefs (s.regs.foldl (fun z e =>
    match coldReg s e.1 with
    | none => z
    | some w => let (p, off) := keyPage e.1; wr p off w z) cold)

/-- RST_N_FALL (R692, R696, R756): reset takes effect at once; it ends a boot halt, the ramp-down and a trip. -/
def execRstNFall (s : State) : Host.Outcome State Fault Refusal := .next (coldState true s)

/-- POWER_LOSS (R687, R756): the rails fall without warning. What the Logbook and the cells hold stays; stack contents do not. -/
def execPowerLoss (s : State) : Host.Outcome State Fault Refusal := .next (coldState false s)

/-- SVC_WARN_HIGH (R610, R756): SVC_WARN_N has been high for 1 ms; a start-up that it held back begins stage 1. -/
def execSvcWarnHigh (s : State) : Host.Outcome State Fault Refusal :=
  let s := { s with svcLow := false }
  .next (if s.boot.waiting then { s with boot := { s.boot with waiting := false, stageAt := now s, rowAt := now s } } else s)

end Sys2Proof.Machine
end

