-- ==== Sys2Proof/Machine/Roll.lean ====
section
/-! DEFINITION. The roll call of a system (R708–R712). -/

namespace Sys2Proof.Machine

/-- The body of a REPORT (R709). -/
def reportBody (r : RollReport) : List Byte :=
  leBytes 4 2 ++ leBytes 8 r.trail ++ leBytes 4 0 ++ leBytes 8 r.ident ++ leBytes 2 (r.x + 32 * r.y) ++ leBytes 1 r.ports ++
    leBytes 1 (b2n r.patch) ++ leBytes 1 r.lxm1 ++ leBytes 1 r.lym1 ++ leBytes 2 r.svn ++ r.nbrs.flatMap (leBytes 8)

/-- The device's parent port, where it has one (R720). -/
def parentPort (s : State) : Option Nat := let p := rf pgTop 0x304 28 24 s; if p = 0x1F then none else some p

/-- Send a report to the parent. -/
def reportUp (r : RollReport) (s : State) : State :=
  match parentPort s with
  | none => s
  | some p => sendFlit p (rollFlit (reportBody r) s) s

/-- A roll-call flit without a trailhead is discarded and counted (R709). -/
def rollForeign (p : Nat) (s : State) : State := bump (pgRlp p) 0x12C 31 0 1 s

/-- The trailhead whose roll call the device follows or holds: its own where it is trailhead; 0 where there is none yet. -/
def trailNow (s : State) : Nat :=
  if s.roll.trail ≠ 0 then s.roll.trail else if isTrailhead s && decide (rf pgTop 0x304 31 30 s ≠ 2) then myIdent s else 0

/-- CALL (R708, R710): the first CALL of a trailhead, or one of a trailhead of lower identity, sets the parent, is forwarded and answered
with a REPORT; a trailhead that gives way records it. A further CALL is discarded, and so is one of a higher identity. -/
def execCall (p trail hops : Nat) (s : State) : Host.Outcome State Fault Refusal :=
  if trail = 0 then .next (rollForeign p s)
  else if !claims s then .next s
  else
    let cur := trailNow s
    if cur ≠ 0 ∧ cur ≤ trail then .next s
    else
      let was := isTrailhead s && decide (rf pgTop 0x304 31 30 s ≠ 2)
      let s := if was then recordErr pgTop errBLOCK s else s
      let s := wf pgTop 0x304 28 24 p (wf pgTop 0x304 31 30 (if was ∨ rf pgTop 0x304 31 30 s = 2 then 2 else 0) s)
      let s := callAll { s with roll := { Roll.none with trail := trail, hops := hops, table := s.roll.table } }
      .next (reportUp (ownReport s) s)

/-- Axis lengths of the table that a trailhead builds (R711). -/
def tableAxes (s : State) : Nat × Nat :=
  if rb pgTop 0x300 31 s then (rf pgTop 0x300 14 10 s + 1, rf pgTop 0x300 19 15 s + 1)
  else (s.roll.reports.foldl (fun m r => max m (r.x + 1)) 1, s.roll.reports.foldl (fun m r => max m (r.y + 1)) 1)

/-- Whether a report's coordinate is left absent: outside the axes, or claimed twice (R711). -/
def excluded (lx ly : Nat) (rs : List RollReport) (r : RollReport) : Bool :=
  decide (lx ≤ r.x ∨ ly ≤ r.y) || decide (2 ≤ (rs.filter (fun q => q.x = r.x ∧ q.y = r.y)).length)

/-- A table that is complete (R712): it is held, and gives the device its place, or takes it away. -/
def holdTable (lxm1 lym1 present : Nat) (ids : List Nat) (s : State) : State :=
  let s := { s with roll := { s.roll with table := ids, segs := [] } }
  let s := wf pgTop 0x304 10 0 present (wf pgTop 0x304 23 16 s.roll.round s)
  let at_ := myCoord s
  let valid := rb pgTop 0x100 31 s
  if claims s && decide (myIdent s ≠ 0 ∧ nth 0 ids at_ = myIdent s) then
    let w := 2 ^ 31 + lym1 % 32 * 2 ^ 15 + lxm1 % 32 * 2 ^ 10 + at_
    if valid then s
    else
      let s := wb pgDie 0x104 31 true (setCoord w s)
      foldRange 5 (fun p s => recheckNbr p s) s
  else if valid then
    let s := wb pgDie 0x104 31 false (setCoord ((rd pgTop 0x100 s).toNat - 2 ^ 31) s)
    reportUp (ownReport s) s
  else s

/-- A TABLE segment's body (R709). -/
def tableBody (trail round seg lxm1 lym1 present : Nat) (ids : List Nat) : List Byte :=
  leBytes 1 3 ++ leBytes 1 round ++ leBytes 2 0 ++ leBytes 8 trail ++ leBytes 1 seg ++ leBytes 1 lxm1 ++ leBytes 1 lym1 ++ leBytes 1 0 ++
    leBytes 4 present ++ leBytes 4 0 ++ ((List.range 64).flatMap (fun i => leBytes 8 (nth 0 ids i)))

/-- The trailhead builds a table of the next ROUND and sends its 16 segments (R710 orders 5 and 8, R711); each exclusion is an error
record. -/
def buildTable (s : State) : State :=
  let rs := s.roll.reports
  let (lx, ly) := tableAxes s
  let s := (rs.filter (excluded lx ly rs)).foldl (fun s r => writeRec { kind := 0x0B, coord := r.x + 32 * r.y } s) s
  let ok := rs.filter (fun r => !excluded lx ly rs r)
  let ids := (List.range 1024).map (fun i => match ok.find? (fun r => r.x + 32 * r.y = i) with | none => 0 | some r => r.ident)
  let round := s.roll.round % 255 + 1
  let s := { s with roll := { s.roll with round := round } }
  let s := foldRange 5 (fun p s =>
    if portUp p s then
      foldRange 16 (fun g s => sendFlit p (rollFlit (tableBody s.roll.trail round g (lx - 1) (ly - 1) ok.length
        ((ids.drop (64 * g)).take 64)) s) s) s
    else s) s
  holdTable (lx - 1) (ly - 1) ok.length ids s

/-- Whether the device holds its own roll call as trailhead. -/
def rollHeld (s : State) : Bool := decide (rf pgTop 0x304 31 30 s = 1 ∧ s.roll.trail ≠ 0 ∧ s.roll.trail = myIdent s)

/-- REPORT (R710 orders 4 and 8): a member forwards it to its parent unless it came from there; the trailhead keeps it, and a device that
its table lacks makes it build a new one. -/
def execReport (p : Nat) (r : RollReport) (s : State) : Host.Outcome State Fault Refusal :=
  if r.trail = 0 then .next (rollForeign p s)
  else if rollHeld s then
    if r.trail ≠ s.roll.trail then .next s
    else
      let new := !(s.roll.reports.any (fun q => q.ident = r.ident))
      let s := { s with roll := { s.roll with
        reports := s.roll.reports.filter (fun q => q.ident ≠ r.ident) ++ [r], lastAt := if new then now s else s.roll.lastAt } }
      .next (if s.roll.round ≠ 0 ∧ !s.roll.table.contains r.ident then buildTable s else s)
  else if parentPort s = some p then .next s
  else .next (reportUp r s)

/-- ROLLCALL_TABLE_BUILD (R710 order 5): all reports of the patch entry's axes are held, QUIET has passed without a new one, or LIMIT has
passed since READY; the first table only. -/
def execRollcallTableBuild (s : State) : Host.Outcome State Fault Refusal :=
  let all := rb pgTop 0x300 31 s && decide ((rf pgTop 0x300 14 10 s + 1) * (rf pgTop 0x300 19 15 s + 1) ≤ s.roll.reports.length)
  let quiet := decide (s.roll.lastAt + msec * rf pgTop 0x308 15 0 s ≤ now s)
  let limit := decide (s.boot.readyAt + msec * rf pgTop 0x308 31 16 s ≤ now s)
  .next (if rollHeld s && decide (s.roll.round = 0) && (all || quiet || limit) then buildTable s else s)

/-- TABLE (R710 orders 6 and 7, R712): a segment of a ROUND not held is forwarded on every other port; one held already, or of another
trailhead, is discarded. All 16 make a table. -/
def execTable (p trail round seg lxm1 lym1 present : Nat) (ids : List Nat) (s : State) : Host.Outcome State Fault Refusal :=
  if trail = 0 then .next (rollForeign p s)
  else if rollHeld s ∨ (s.roll.trail ≠ 0 ∧ s.roll.trail ≠ trail) ∨ 15 < seg ∨ round = 0 ∨ rf pgTop 0x304 23 16 s = round ∨
      (s.roll.round = round ∧ s.roll.segs.any (fun e => e.1 = seg)) then .next s
  else
    let s := { s with roll := { s.roll with
      round := round, segs := (if s.roll.round = round then s.roll.segs else []) ++ [(seg, ids)] } }
    let f := rollFlit (tableBody trail round seg lxm1 lym1 present ids) s
    let s := foldRange 5 (fun q s => if q ≠ p ∧ portUp q s then sendFlit q f s else s) s
    if s.roll.segs.length < 16 then .next s
    else
      let all := (List.range 16).flatMap (fun g => match s.roll.segs.find? (fun e => e.1 = g) with
        | none => List.replicate 64 0
        | some e => (List.range 64).map (fun i => nth 0 e.2 i))
      .next (holdTable lxm1 lym1 present all s)

end Sys2Proof.Machine
end

