-- ==== Sys2Proof/Machine/RegRead.lean ====
section
/-! DEFINITION. What a register reads as (R20, R108, R729–R738): stored words, words computed from the rest of the state, and reads that
claim, advance or latch. -/

namespace Sys2Proof.Machine

-- The page header -------------------------------------------------------------------------------------------------------

/-- Whether PG_CTRL.EN is implemented: bit 0 of the page's register at 0x100 (R736). -/
def Page.hasEn (p : Page) : Bool :=
  match p with
  | .die 1 => true
  | .rgn _ 1 => true
  | .rgn _ 2 => true
  | _ => decide (p.cls.1 = 7 ∨ p.cls.1 = 8 ∨ p.cls.1 = 9 ∨ p.cls.1 = 0x0D)

/-- Whether PG_CTRL.FENCE is implemented (R736). -/
def Page.hasFence (p : Page) : Bool := decide (p.cls.1 = 0x0A ∨ p.cls.1 = 0x20 ∨ p.cls.1 = 0x30)

/-- PG_CTRL.FENCE (R736). -/
def fenceBit (p : Page) (s : State) : Bool :=
  match p with
  | .clu c => rb (.clu c) 0x314 16 s
  | .rgn r _ => (rgnAt r s).fenced
  | _ => p.hasFence && rb p 0x100 0 s

/-- PG_STAT.FENCED (R738): the fence of R736 is in effect. -/
def fencedBit (p : Page) (s : State) : Bool :=
  match p with
  | .clu c => (cluAt c s).fenced
  | .rgn r 0 => (rgnAt r s).fenced
  | _ => p.hasFence && rb p 0x104 1 s

/-- PG_CTRL as it reads (R735, R736). -/
def ctrlWord (p : Page) (s : State) : Word :=
  let en := if p.hasEn then rb p 0x100 0 s else true
  word (b2n (rb p 0x008 3 s) * 8 + b2n (p.hasFence && fenceBit p s) * 2 + b2n en)

/-- INFO of PG_CAPS (R734). -/
def capsInfo (p : Page) : Nat :=
  match p with
  | .clu c => regionOf c
  | .rgn r 0 => match firstBelow 20 (fun n => decide (stkRegion n = r)) with
    | none => 0
    | some n => 32 + n
  | _ => 0

/-- A header register that is not simply stored (R732–R740). -/
def headerWord (p : Page) (off : Nat) (s : State) : Option Word :=
  match off with
  | 0x000 => some (word (p.cls.1 * 2 ^ 24 + p.cls.2 * 2 ^ 16 + 0x0100))
  | 0x004 => some (word (capsInfo p * 2 ^ 16 + b2n (decide (p.cls.1 = 0x30)) * 4 + b2n p.hasFence * 2 + b2n p.hasEn))
  | 0x008 => some (ctrlWord p s)
  | 0x00C =>
    let pend := decide (Nat.land (rd p 0x010 s).toNat (511 - rf p 0x014 8 0 s) ≠ 0)
    some (word (b2n (rb p 0x008 3 s) * 8 + b2n pend * 4 + b2n (fencedBit p s) * 2 + b2n (locked p s)))
  | 0x018 => some (rd p 0x010 s)
  | _ => none

-- Units and clusters ----------------------------------------------------------------------------------------------------------

/-- UNIT_ID (R100). -/
def unitId (c slot : Nat) (s : State) : Word :=
  let x := unitAt c slot s
  let role := if x.fenced then 6 else if x.underTest then 5 else if slot < 64 then 0
    else nth 7 [1, 2, 2, 3, 4, 7] (spareSt c (slot - 64) s)
  word (role * 2 ^ 16 + b2n x.serves.isNone * 2 ^ 15 + x.serves.getD 0 * 2 ^ 8 + slot)

/-- UNIT_STAT (R102). -/
def unitStat (c slot : Nat) (s : State) : Word :=
  let x := unitAt c slot s
  let pgm := decide (x.p0.st = .programming ∨ x.p1.st = .programming)
  word (x.lastCause * 2 ^ 12 + b2n x.fenced * 2 ^ 11 + b2n pgm * 2 ^ 10 + b2n x.cur.isSome * 2 ^ 9 +
    b2n (rb (.unit c slot) 0x80C 0 s) * 2 ^ 8 + x.p1.st.code * 16 + x.p0.st.code)

/-- CLU_STEPSTAT (R293). -/
def stepStat (c : Nat) (s : State) : Word :=
  let cl := cluAt c s
  let ovf := b2n (rb (.clu c) 0x2B0 31 s) * 2 ^ 31
  match slotOfClu c s with
  | none => word (ovf + 1)
  | some n =>
    if cluIdle c s then word (ovf + 1)
    else word (ovf + sumN ((missing cl).map (fun i => 2 ^ (9 + i))) + b2n (noGate cl) * 2 ^ 8 + b2n (noSlack (slotAt n s) cl) * 2 ^ 7 +
      b2n (thermalHold (regionOf c) s) * 2 ^ 6 + b2n (damperHold s || unitWaits c s) * 2 ^ 5 + b2n (noLane c s) * 2 ^ 4 + b2n (actionsOpen cl) * 8)

/-- Slots of a cluster with a UNIT_EVT bit set (R106, R685). -/
def evtSlots (c : Nat) (s : State) : List Nat :=
  (List.range 68).filter (fun k => decide (rd (.unit c k) 0x81C s ≠ 0))

/-- Whether RCN_EVMAP marks a cluster (R684). -/
def evMarked (c : Nat) (s : State) : Bool :=
  decide (Nat.land (rd (.clu c) 0x010 s).toNat (511 - rf (.clu c) 0x014 8 0 s) ≠ 0) ||
    s.regs.any (fun e => decide (2 ^ 40 ≤ e.1 ∧ (e.1 - 2 ^ 40) / 4096 / 128 = c ∧ e.1 % 4096 = 0x81C))

/-- Registers of a cluster page computed from the state. -/
def cluWord (q : Requester) (c off : Nat) (s : State) : Option Word :=
  let cl := cluAt c s
  let tok (i : Nat) : Nat := SMap.get 0 cl.tokens i
  match off with
  | 0x264 => some (entReadLo .uat q c s)
  | 0x270 => some (entReadLo .red q c s)
  | 0x304 => some (entReadLo .rte q c s)
  | 0x278 => some (setF (rd (.clu c) 0x278 s) 4 0 cl.armed.length)
  | 0x2A0 => some (word (cl.next - 1))
  | 0x2A4 => some (word ((cl.next - 1) / 2 ^ 32 % 2 ^ 16))
  | 0x2A8 => some (word (tok 3 * 2 ^ 24 + tok 2 * 2 ^ 16 + tok 1 * 2 ^ 8 + tok 0))
  | 0x2AC => some (word (cl.gates.length * 2 ^ 24 + tok 6 * 2 ^ 16 + tok 5 * 2 ^ 8 + tok 4))
  | 0x2B0 => some (stepStat c s)
  | 0x380 | 0x384 | 0x388 =>
    let n := (off - 0x380) / 4
    some (word (sumN (((evtSlots c s).filter (fun k => k / 32 = n)).map (fun k => 2 ^ (k % 32)))))
  | _ => none

-- Regions ------------------------------------------------------------------------------------------------------------------------

/-- Units of a region with any stale bit set (R204). -/
def staleCount (r : Nat) (s : State) : Nat :=
  (s.regs.filter (fun e => decide (2 ^ 40 ≤ e.1 ∧ regionOf ((e.1 - 2 ^ 40) / 4096 / 128) = r ∧ e.1 % 4096 = 0xB60 ∧ getF e.2 4 1 ≠ 0))).length

/-- Whether a region's trim engine has a task in progress (R204). -/
def trimBusy (r : Nat) (s : State) : Bool :=
  !(rgnAt r s).cmds.isEmpty ||
    s.units.any (fun e => decide (regionOf (e.1 / 128) = r) && e.2.cal.any (fun k => !k.2.chunks.isEmpty || !k.2.takes.isEmpty))

/-- Whether a region's sense converter is powered and converts, one conversion after another (R638, R654). -/
def snsOn (r : Nat) (s : State) : Bool := !((rgnAt r s).fenced || (rgnAt r s).off || inService s)

/-- Registers of a region's pages computed from the state. -/
def rgnWord' (r i off : Nat) (s : State) : Option Word :=
  match i with
  | 1 => if off = 0x104 then
      some (setB (setF (rd (pgTrm r) off s) 31 16 (staleCount r s)) 0 (trimBusy r s)) else none
  | 2 => if off = 0x104 then
      some (setB (setF (rd (pgSns r) off s) 22 16 (rgnAt r s).sns.queue.length) 0 (snsOn r s)) else none
  | 3 => if off = 0x100 then
      some (setB (rd (pgStv r) off s) 2 ((allocSlots s).any (fun n => (slotAt n s).stoves.contains r))) else none
  | 4 => if 0x200 ≤ off ∧ off < 0x220 then
      some (word (sumN ((List.range 32).map (fun j => b2n (evMarked (clusterOf r ((off - 0x200) / 4 * 32 + j)) s) * 2 ^ j)))) else none
  | 5 => if off = 0x104 then
      some (setB (rd (pgIvr r) off s) 8 (decide (rf (pgIvr r) 0x104 5 0 s ≠ rf (pgIvr r) 0x100 5 0 s))) else none
  | _ => none

-- Die pages -------------------------------------------------------------------------------------------------------------------------

/-- Bits of 32 sources in a state (R677). -/
def srcMap (n st : Nat) (s : State) : Word :=
  word (sumN (((srcList s).filter (fun k => decide (k / 32 = n ∧ srcState k s = st))).map (fun k => 2 ^ (k % 32))))

/-- ADM_SLOTn (R316); STALLED is the stored bit, which a write of 1 clears (R289). -/
def admSlotWord (n : Nat) (s : State) : Word :=
  let x := slotAt n s
  word (x.st.code * 2 ^ 29 + b2n (rb pgAdm (0x140 + 4 * n) 28 s) * 2 ^ 28 + x.pitch * 2 ^ 24 + x.feat % 256 * 2 ^ 16 + x.slack * 2 ^ 8 + x.window)

/-- ADM_PLANEn (R437). -/
def admPlaneWord (n : Nat) (s : State) : Word :=
  let x := slotAt n s
  word (rf pgAdm (0x200 + 4 * n) 31 28 s * 2 ^ 28 + b2n (x.allocated && planeReleased x 1) * 2 ^ 25 +
    b2n (x.allocated && planeReleased x 0) * 2 ^ 24 + b2n x.tagAct * 2 ^ 8 + x.ptr)

/-- Registers of the ADM page computed from the state (R314–R317, R437). -/
def admWord (off : Nat) (s : State) : Option Word :=
  if off = 0x12C then some (word (min (admSum (·.slew) s) 65535 * 2 ^ 16 + min (admSum (·.power) s) 65535))
  else if off = 0x130 then some (word (min (admSum (·.mirBw) s) 65535))
  else if 0x140 ≤ off ∧ off < 0x180 then some (admSlotWord ((off - 0x140) / 4) s)
  else if 0x180 ≤ off ∧ off < 0x200 then
    let f := (slotAt ((off - 0x180) / 8) s).floor
    some (word (if (off - 0x180) % 8 = 0 then f else f / 2 ^ 32 % 2 ^ 16))
  else if 0x200 ≤ off ∧ off < 0x240 then some (admPlaneWord ((off - 0x200) / 4) s)
  else if 0x240 ≤ off ∧ off < 0x280 then
    let x := slotAt ((off - 0x240) / 4) s
    some (word (min x.drain1 65535 * 2 ^ 16 + min x.drain0 65535))
  else none

/-- Unit-planes RESIDENT under a residency record (R432). -/
def recUnits (x : ResRec) (s : State) : Nat :=
  (x.members.filter (fun k => match physOf (k / 2 / 64) (k / 2 % 64) s with
    | none => false
    | some slot => decide (((unitAt (k / 2 / 64) slot s).plane (k % 2)).st = .resident))).length

/-- Registers of the SFS pages computed from the state (R421, R432). -/
def sfsWord (q : Requester) (e off : Nat) (s : State) : Option Word :=
  if off = 0x200 then
    some (setB (rd (.die (0xC0 + e)) 0x200 s) 0 (match s.ld.shard with
      | none => false
      | some i => match curSrc i s with | none => false | some x => decide (engineOf i x s = e)))
  else if e ≠ 0 then none
  else
    let x := SMap.get ResRec.free s.resrecs (getF (rdQ q pgSfs 0x140 s) 7 0)
    match off with
    | 0x144 => some (word (x.st * 2 ^ 30 + b2n x.join * 2 ^ 29 + x.plane * 2 ^ 28 + recUnits x s))
    | 0x148 => some (word x.time)
    | 0x14C => some (word (x.time / 2 ^ 32))
    | _ => if 0x180 ≤ off ∧ off < 0x1C0 then some (word (leAt x.digest (off - 0x180) 4)) else none

/-- Registers of the PWR page computed from the state (R630, R631, R634, R636). -/
def pwrWord (q : Requester) (off : Nat) (s : State) : Option Word :=
  let level (r : Nat) : Nat := (rgnAt r s).level
  match off with
  | 0x108 =>
    let relq := sumN (s.rgns.map (fun e => sumN e.2.relq))
    some (word (min (relq / (amp / 10)) 65535 * 2 ^ 16 + min (chargeNow s / (amp / 10)) 65535))
  | 0x110 => some (setF (rd pgPwr 0x110 s) 6 4 ((List.range 64).foldl (fun m r => max m (level r)) 0))
  | 0x154 =>
    let r := getF (rdQ q pgPwr 0x150 s) 5 0
    some (word (min (rgnCeil r s / (amp / 100)) 65535 * 2 ^ 16 + min ((rgnAt r s).charge / (amp / 100)) 65535))
  | _ =>
    if 0x120 ≤ off ∧ off < 0x140 then
      some (word (sumN ((List.range 8).map (fun i => level (8 * ((off - 0x120) / 4) + i) * 16 ^ i)))) else none

/-- Registers of the STRM page computed from the state (R589). -/
def strmWord (q : Requester) (off : Nat) (s : State) : Option Word :=
  let io := getF (rdQ q pgStrm 0x100 s) 3 0
  if 0x104 ≤ off ∧ off < 0x114 then some (ioWord io ((off - 0x104) / 4) s)
  else if off = 0x120 then some (word (s.strms.filter (fun e => decide (e.2.ent.state ≠ 0))).length)
  else if off = 0x124 then some (word (min (queuedNow s) 16383))
  else if 0x140 ≤ off ∧ off < 0x180 then
    let sid := getF (rdQ q pgStrm 0x130 s) 19 0
    some (word (leAt (entBytes (strmAt sid s).ent sid) (off - 0x140) 4))
  else none

/-- The layer window of the CNT page (R153). -/
def layerRead (q : Requester) (off : Nat) (s : State) : Option Word :=
  if 0x404 ≤ off ∧ off < 0x41C then some (layerWord (getF (rdQ q pgCnt 0x400 s) 7 0) ((off - 0x404) / 4) s)
  else if 0x420 ≤ off ∧ off < 0x440 then
    some (word (sumN ((List.range 32).map (fun j => b2n (decide (layerWord ((off - 0x420) / 4 * 32 + j) 5 s ≠ 0)) * 2 ^ j))))
  else none

/-- The addressed identity word of the table (R720). -/
def tableRead (q : Requester) (s : State) : Word :=
  let w := rdQ q pgTop 0x30C s
  word (nth 0 s.roll.table (getF w 9 0) / 2 ^ (32 * getF w 10 10))

/-- A suspect table entry (R530). -/
def suspectWord (q : Requester) (off : Nat) (s : State) : Word :=
  match s.suspects[getF (rdQ q pgDie 0x20C s) 7 0]? with
  | none => 0
  | some e =>
    if off = 0x214 then word (e.start / 1000000)
    else word (2 ^ 31 + b2n e.perm * 2 ^ 30 + e.rung % 8 * 2 ^ 27 + min e.count 15 * 2 ^ 23 + e.unit % 128 * 2 ^ 14 + e.unit / 128)

/-- Registers of a die page computed from the state. -/
def dieWord' (q : Requester) (p off : Nat) (s : State) : Option Word :=
  match (Page.die p).cls with
  | (1, _) => if off = 0x210 ∨ off = 0x214 then some (suspectWord q off s) else none
  | (2, 0) =>
    if 0x140 ≤ off ∧ off < 0x1B0 ∧ off % 16 = 12 then some (word (min 4095 (pendOf ((off - 0x140) / 16) s).length))
    else if 0x200 ≤ off ∧ off < 0x300 then some (srcMap ((off - 0x200) / 4) 1 s)
    else if 0x300 ≤ off ∧ off < 0x400 then some (srcMap ((off - 0x300) / 4) 2 s)
    else none
  | (3, _) => if off = 0x100 then
      some (setB (rd pgClk 0x100 s) 4 (match s.epochAt with | none => false | some t => decide (now s ≤ t + 1100 * usec))) else none
  | (4, _) => pwrWord q off s
  | (6, _) => if 0x1C0 ≤ off ∧ off < 0x200 then
      some (word (leAt (SMap.get (List.replicate 64 0) s.meas (getF (rdQ q pgSec 0x180 s) 2 0)) (off - 0x1C0) 4)) else none
  | (7, _) => if off = 0x124 then
      some (word (min (SMap.get 0 s.dz.cred 4) 65535 * 2 ^ 16 + min (SMap.get 0 s.dz.cred 6) 65535)) else none
  | (0x0B, e) => sfsWord q e off s
  | (0x0C, _) => admWord off s
  | (0x0D, _) => if off = 0x120 then
      some (word (if twnState s = 0 then 0 else min ((now s - s.twn.heartAt) / usec) (2 ^ 32 - 1))) else none
  | (0x0E, _) => layerRead q off s
  | (0x0F, _) => strmWord q off s
  | (0x11, _) => if off = 0x204 then
      (let w := rdQ q pgTop 0x200 s; some (peerWord (getF w 11 0) (getF w 14 12) s))
    else if off = 0x310 then some (tableRead q s) else none
  | _ => none

-- A register's word ------------------------------------------------------------------------------------------------------------

/-- Registers with a separate copy for each requester (R729). -/
def isBanked (p : Page) (off : Nat) : Bool :=
  match p.cls.1 with
  | 1 => decide (off = 0x20C)
  | 4 => decide (off = 0x150)
  | 6 => decide (off = 0x180)
  | 0x0B => decide (p = pgSfs ∧ off = 0x140)
  | 0x0E => decide (off = 0x400)
  | 0x0F => decide (off = 0x100 ∨ off = 0x130)
  | 0x11 => decide (off = 0x200 ∨ off = 0x30C)
  | 0x30 => match p with
    | .clu _ => decide (off = 0x100 ∨ off = 0x248 ∨ off = 0x260 ∨ off = 0x264 ∨ off = 0x26C ∨ off = 0x270 ∨ off = 0x300 ∨ off = 0x304 ∨
        off = 0x30C)
    | _ => false
  | _ => false

/-- What a register holds now, as a requester sees it (R20, R729). -/
def regNow (q : Requester) (p : Page) (off : Nat) (s : State) : Word :=
  let live : Option Word :=
    match p with
    | .unit c slot => if off = 0x800 then some (unitId c slot s) else if off = 0x808 then some (unitStat c slot s) else none
    | _ =>
      if off < 0x100 then headerWord p off s
      else match p with
        | .die n => dieWord' q n off s
        | .rgn r i => rgnWord' r i off s
        | .clu c => cluWord q c off s
        | .unit _ _ => none
  match live with
  | some w => w
  | none => if isBanked p off then rdQ q p off s else rd p off s

/-- Offsets of LO registers whose read latches the HI register after them (R108). -/
def latchesHi (p : Page) (off : Nat) : Bool :=
  match p with
  | .unit _ _ => decide (off = 0x824 ∨ off = 0xB64 ∨ off = 0xB6C ∨ off = 0xB74)
  | _ =>
    match p.cls.1 with
    | 1 => decide (off = 0x250)
    | 6 => decide (off = 0x108)
    | 8 => decide (off = 0x10C)
    | 9 => decide (off = 0x138)
    | 0x0A => decide (off = 0x10C)
    | 0x0B => decide (p = pgSfs ∧ off = 0x148)
    | 0x0C => decide (0x180 ≤ off ∧ off < 0x200 ∧ off % 8 = 0)
    | 0x0E => decide (off = 0x10C ∨ (0x200 ≤ off ∧ off < 0x400 ∧ off % 8 = 0))
    | 0x24 => decide (off = 0x10C ∨ (0x180 ≤ off ∧ off < 0x200 ∧ off % 8 = 0))
    | 0x30 => decide (off = 0x2A0 ∨ off = 0x328)
    | _ => false

/-- HI registers that answer a requester's latch (R108); SNS_RES_HI is latched by the claim (R652). -/
def isLatched (p : Page) (off : Nat) : Bool :=
  (decide (4 ≤ off) && latchesHi p (off - 4)) || (decide (p.cls.1 = 0x22) && decide (off = 0x1D4))

/-- A read of the trim of the oscillator (R596, R625): while the IOSC is trimmed continuously the value in force is not stated and is
free. -/
def oscRead (s : State) : Word × State :=
  if rf pgClk 0x100 2 0 s = 0 ∨ rf pgClk 0x100 2 0 s = 2 then let (w, s) := takeFree s; (word (w % 2 ^ 24), s) else (rd pgClk 0x104 s, s)

/-- A read of TOP_TBLDATA (R720): WORD advances and carries into ENTRY. -/
def tableStep (q : Requester) (s : State) : Word × State :=
  let w := rdQ q pgTop 0x30C s
  let i := getF w 9 0 * 2 + getF w 10 10 + 1
  (tableRead q s, wrQ q pgTop 0x30C (setF (setF w 10 10 i) 9 0 (i / 2)) s)

/-- A read of a register by a requester: the word and what the read changes (R20, R108). A word that no register occupies reads 0 (R723). -/
def readReg (q : Requester) (p : Page) (off : Nat) (s : State) : Word × State :=
  if (p.fields off).isNone then (0, s)
  else if isLatched p off then (getLatch q p off s, s)
  else if latchesHi p off then (regNow q p off s, setLatch q p (off + 4) (regNow q p (off + 4) s) s)
  else match p with
    | .clu c =>
      match off with
      | 0x24C => curveRead q c s
      | 0x268 => entReadHi .uat q c s
      | 0x274 => entReadHi .red q c s
      | 0x308 => entReadHi .rte q c s
      | 0x310 => routeRead q c s
      | _ => (regNow q p off s, s)
    | .rgn r 2 => if off = 0x1D0 then snsClaim q r s else (regNow q p off s, s)
    | .die 1 => if 0x140 ≤ off ∧ off < 0x1B0 ∧ off % 16 = 0 then claimRead ((off - 0x140) / 16) s else (regNow q p off s, s)
    | .die 0x20 => if off = 0x104 then oscRead s else (regNow q p off s, s)
    | .die 0x120 => if off = 0x204 then peerRead q s else if off = 0x310 then tableStep q s else (regNow q p off s, s)
    | _ => (regNow q p off s, s)

end Sys2Proof.Machine
end

