-- ==== Sys2Proof/Machine/RegWrite.lean ====
section
/-! DEFINITION. What a write of each register does (R20–R24, R721–R744), and the register commands of Lantern. -/

namespace Sys2Proof.Machine

/-- Whether a word has bits outside the fields of its register (R22). -/
def outside (p : Page) (off : Nat) (v : Word) : Bool := decide (inFields ((p.fields off).getD []) v.toNat ≠ v.toNat)

/-- A write of a register whose fields are commands: reserved bits are recorded, then the command runs. -/
def putCmd (p : Page) (off : Nat) (v : Word) (f : State → State) (s : State) : State := f (recIf (outside p off v) p errRESWR s)

-- The page header (R735–R744) ---------------------------------------------------------------------------------------

/-- EN of an unlocked page is written through its named field (R736). -/
def enWrite (p : Page) (b : Bool) (s : State) : State :=
  if rb p 0x100 0 s = b ∧ p ≠ pgTwn ∧ p ≠ pgWhi then s
  else
    match p with
    | .die 1 => whiEnWrite b s
    | .die 0x60 => let s := wb p 0x100 0 b s; if b then s else dzDown s
    | .die 0xE0 => if b then pairOn s else if rb p 0x100 0 s then pairOff s else s
    | .die n =>
      let s := wb p 0x100 0 b s
      if p.cls.1 = 8 ∧ !b then linkDrop (n - 0x70) s else s
    | _ => wb p 0x100 0 b s

/-- FENCE of a page is written through its named field (R388, R525, R736). -/
def pgFenceWrite (p : Page) (b : Bool) (s : State) : State :=
  match p with
  | .clu c => if rb p 0x314 16 s = b then s else rfenceWrite c b s
  | .rgn r _ => if b then rgnFence r s else s
  | .die n => if b then stackFenceWrite (n - 0xA0) s else s
  | .unit _ _ => s

/-- A write of PG_CTRL (R735–R737, R744): the other value of an unimplemented EN or FENCE is a reserved write. The W1C bits that
the write itself sets outlive its statistics reset, its counts do not (R24). -/
def ctrlWrite (p : Page) (v : Word) (s : State) : State :=
  let lk := locked p s
  let s := if getB v 2 then statsReset p s else s
  let rsv := decide (getF v 31 4 ≠ 0) || (!p.hasEn && !getB v 0) || (!p.hasFence && getB v 1)
  let s := recIf lk p errLOCKWR (recIf rsv p errRESWR s)
  let s := if lk then s else wb p 0x008 3 (getB v 3) s
  let s := if p.hasEn && !lk then enWrite p (getB v 0) s else s
  let s := if p.hasFence then pgFenceWrite p (getB v 1) s else s
  if getB v 2 then countsReset p s else s

/-- A write of a header register. -/
def headerWrite (p : Page) (off : Nat) (v : Word) (s : State) : State :=
  match off with
  | 0x008 => ctrlWrite p v s
  | 0x018 => errSetWrite p v s
  | 0x030 => lockWrite p v s
  | _ => putPlain p off v s

-- Units and clusters -----------------------------------------------------------------------------------------------------

/-- A write of a unit register (R49, R97–R99, R103, R105). -/
def unitWrite (c slot off : Nat) (v : Word) (s : State) : State :=
  let p := Page.unit c slot
  match off with
  | 0x804 => fenceWrite c slot (getB v 0) (putPlain p off v s)
  | 0x80C =>
    let h0 := planeHeld c slot 0 s
    let h1 := planeHeld c slot 1 s
    putKeeping p off (fun lo => if lo = 0 then h0 || h1 else if lo = 4 then h0 else h1) v s
  | 0x818 => putCmd p off v (marginSet c slot (getF v 2 0)) s
  | _ => putPlain p off v s

/-- Whether a plane in use of a cluster names a format table (R118). -/
def fmtUsed (c n : Nat) (s : State) : Bool :=
  (List.range 68).any (fun k => (List.range 2).any (fun p =>
    planeHeld c k p s && decide (rf (.unit c k) 0x80C (6 + 4 * p) (4 + 4 * p) s = n)))

/-- Registers of a cluster page with a copy for each requester and no rule of their own (R729). -/
def cluBanked (off : Nat) : Bool :=
  decide (off = 0x100 ∨ off = 0x248 ∨ off = 0x260 ∨ off = 0x264 ∨ off = 0x26C ∨ off = 0x270 ∨ off = 0x300 ∨ off = 0x304)

/-- A write of CLU_RTIDX: INDEX [1:0] are held at 0 (R363). -/
def rtidxWrite (q : Requester) (c : Nat) (v : Word) (s : State) : State :=
  recIf (decide (getF v 1 0 ≠ 0)) (.clu c) errFIELD (putBank q (.clu c) 0x30C (setF v 1 0 0) s)

/-- A write of a register of a cluster page. -/
def cluWrite (q : Requester) (c off : Nat) (v : Word) (s : State) : State :=
  let p := Page.clu c
  if cluBanked off then putBank q p off v s
  else if 0x180 ≤ off ∧ off < 0x190 then
    putCmd p off v (spareWrite c ((off - 0x180) / 4) (getF v 5 0) (getF v 10 8) (getF v 13 12)) s
  else if 0x1C0 ≤ off ∧ off < 0x200 then
    let used := fmtUsed c ((off - 0x1C0) / 8) s
    putReg p off (fun _ => used) v s
  else if 0x200 ≤ off ∧ off < 0x220 then putUnless (pairUsed c ((off - 0x200) / 4 % 4) s) p off v s
  else match off with
    | 0x240 => putUnless (curveUsed c 0 s) p off v s
    | 0x244 => putUnless (curveUsed c 1 s) p off v s
    | 0x24C => curveWrite q c v s
    | 0x268 => entWriteHi .uat q c v s
    | 0x274 => entWriteHi .red q c v s
    | 0x308 => entWriteHi .rte q c v s
    | 0x30C => rtidxWrite q c v s
    | 0x310 => routeWrite q c v s
    | 0x280 => putUnless (admitted c s || decide (getF v 24 16 < getF v 8 0)) p off v s
    | 0x284 => putUnless (admitted c s || decide (1 ≤ getF v 5 0 ∧ getF v 5 0 ≤ 7)) p off v s
    | 0x314 =>
      let was := rb p off 16 s
      let s := putPlain p off v s
      if getB v 16 = was then s else rfenceWrite c (getB v 16) s
    | _ => putPlain p off v s

-- Regions --------------------------------------------------------------------------------------------------------------------

/-- Whether a write of TRM_BANDb is discarded (R173). -/
def bandKept (r b : Nat) (v : Word) (s : State) : Bool :=
  let tlo (i : Nat) : Nat := if i = b then getF v 23 16 else rf (pgTrm r) (0x130 + 4 * i) 23 16 s
  rb (pgTrm r) 0x100 2 s || (List.range 7).any (fun i => decide ((i = b ∨ i + 1 = b) ∧ tlo (i + 1) ≤ tlo i))

/-- Codes of region event counters that name no instance, by R680. -/
def selRegion (code : Nat) : Bool :=
  decide (code ≤ 1 ∨ (0x10 ≤ code ∧ code ≤ 0x1A) ∨ (0x20 ≤ code ∧ code ≤ 0x25) ∨ (0x30 ≤ code ∧ code ≤ 0x32) ∨
    (0x38 ≤ code ∧ code ≤ 0x3A) ∨ (0x40 ≤ code ∧ code ≤ 0x44) ∨ (0x50 ≤ code ∧ code ≤ 0x53) ∨ code = 0x58)

/-- How many instances QUAL names for a die code; none where the code is reserved or of the other level (R680). -/
def selDie (code : Nat) : Option Nat :=
  if code ≤ 1 ∨ (0x80 ≤ code ∧ code ≤ 0x84) ∨ (0x88 ≤ code ∧ code ≤ 0x8A) ∨ (0xA0 ≤ code ∧ code ≤ 0xA4) ∨ code = 0xA8 ∨ code = 0xA9 ∨
      (0xB0 ≤ code ∧ code ≤ 0xB2) ∨ code = 0xB8 ∨ code = 0xB9 ∨ code = 0xC0 ∨ code = 0xC1 then some 0
  else if 0x90 ≤ code ∧ code ≤ 0x93 then some 5
  else if 0x98 ≤ code ∧ code ≤ 0x9A then some 8
  else if code = 0xD0 ∨ code = 0xD1 then some 20
  else none

/-- Whether a SEL word is one that R680 admits in a page. -/
def selOk (dieLevel : Bool) (v : Word) : Bool :=
  let code := getF v 7 0
  let qual := getF v 12 8
  if dieLevel then
    match selDie code with
    | none => false
    | some 0 => decide (qual = 0)
    | some n => decide (qual < n ∨ qual = 0x1F)
  else selRegion code && decide (qual = 0)

/-- A write of SNS_CTRL (R649, R655). -/
def snsCtrlWrite (r : Nat) (v : Word) (s : State) : State :=
  let running := rb (pgSns r) 0x104 2 s
  let s := putReg (pgSns r) 0x100 (fun lo => running && decide (lo = 12)) (setB v 2 false) s
  if getB v 2 then snsStartWrite r s else s

/-- A write of a register of a region page. -/
def rgnWrite (r i off : Nat) (v : Word) (s : State) : State :=
  let p := Page.rgn r i
  match i with
  | 1 =>
    if 0x130 ≤ off ∧ off < 0x150 then putUnless (bandKept r ((off - 0x130) / 4) v s) p off v s
    else if off = 0x158 then putCmd p off v (trmCommand r (getF v 2 0) (getF v 23 16) (getF v 14 8) (getF v 3 3)) s
    else putPlain p off v s
  | 2 =>
    if off = 0x100 then snsCtrlWrite r v s
    else if off = 0x10C then
      let s := putPlain p off v s
      if getB v 7 then snsTrigger r 3 s else s
    else if 0x180 ≤ off ∧ off < 0x1C0 then putUnless (rb p 0x104 2 s) p off v s
    else putPlain p off v s
  | 4 => if 0x140 ≤ off ∧ off < 0x160 then putUnless (!selOk false v) p off v s else putPlain p off v s
  | 5 => if off = 0x100 then ivrWrite r v s else putPlain p off v s
  | _ => putPlain p off v s

-- Die pages ------------------------------------------------------------------------------------------------------------------------

/-- A write of a register of WHI page 0x001. -/
def whiWrite (off : Nat) (v : Word) (s : State) : State :=
  if off = 0x100 then
    let s := putPlain pgWhi off v s
    if locked pgWhi s then s else whiEnWrite (getB v 0) s
  else if off = 0x104 then putCmd pgWhi off v (setpendWrite (getF v 10 0)) s
  else if 0x144 ≤ off ∧ off < 0x1B4 ∧ off % 16 = 4 then completeWrite ((off - 0x144) / 16) v.toNat s
  else putPlain pgWhi off v s

/-- A write of a register of a WHI source page. -/
def whiSrcWrite (n off : Nat) (v : Word) (s : State) : State :=
  let base := (n - 2) * 256
  if 0x100 ≤ off ∧ off < 0x500 then cfgWrite (base + (off - 0x100) / 4) v s
  else if 0x500 ≤ off ∧ off < 0x900 then timeWrite (base + (off - 0x500) / 4) v s
  else putPlain (.die n) off v s

/-- A write of DZT_CTRL (R561, R587). -/
def dztWrite (v : Word) (s : State) : State :=
  let was := rb pgDzt 0x100 0 s
  let s := putPlain pgDzt 0x100 (setB v 3 false) s
  let s := if was && !rb pgDzt 0x100 0 s then dzDown s else s
  if getB v 3 then dzRetrainWrite s else s

/-- A write of RLP_CTRL (R452, R487). -/
def rlpWrite (i : Nat) (v : Word) (s : State) : State :=
  let p := pgRlp i
  let was := rb p 0x100 0 s
  let s := putPlain p 0x100 (setB v 1 false) s
  let s := if was && !rb p 0x100 0 s then linkDrop i s else s
  if getB v 1 then retrainWrite i s else s

/-- A write of STK_CTRL (R388, R391). -/
def stkCtrlWrite (n : Nat) (v : Word) (s : State) : State :=
  let s := putPlain (pgStk n) 0x100 (setB v 0 false) s
  if getB v 0 then stackFenceWrite n s else s

/-- Whether a write of STK_GRPCTL is discarded (R376, R396): in a page other than of stack S4g; for groups 2 and 4 outside stage 3; and
while an admitted image, a stream or the pair's ranges have bytes in the group. -/
def grpHeld (n : Nat) (s : State) : Bool :=
  let g := n / 4
  let range := (g * groupSize, groupSize)
  decide (n % 4 ≠ 0) ||
    (if g = 2 ∨ g = 4 then decide (stageNow s ≠ 3)
     else (List.range 16).any (fun k => let x := slotAt k s; x.st.holds && x.extents.any (fun e => overlap e range)) ||
       !(streamsOn range.1 range.2 s).isEmpty ||
       (decide (twnState s ≠ 0) && (overlap (twnSrc s, twnLen s) range || overlap (twnMir s, twnLen s) range)))

/-- A write of SFS_LDCMD (R404). -/
def ldcmdWrite (v : Word) (s : State) : State :=
  match getF v 2 0 with
  | 0 => s
  | 1 => loadWrite (getF v 9 8) (getF v 5 4) (getF v 23 20) (getF v 19 16) s
  | 2 => loadAbortWrite s
  | 3 => loadAckWrite s
  | _ => recordErr pgSfs errFIELD s

/-- A write of ADM_CMD (R308). -/
def admCmdWrite (v : Word) (s : State) : State :=
  let n := getF v 19 16
  match getF v 2 0 with
  | 0 => s
  | 1 => admitWrite s
  | 2 => startWrite n s
  | 3 => retireWrite n s
  | 4 => abortWrite n s
  | 5 => releaseWrite n s
  | _ => recordErr pgAdm errFIELD s

/-- A write of a register of the ADM page (R157, R308, R316, R436). -/
def admWrite (off : Nat) (v : Word) (s : State) : State :=
  if off = 0x100 then putCmd pgAdm off v (admCmdWrite v) s
  else if 0x140 ≤ off ∧ off < 0x180 then
    if getB v 28 then wb pgAdm off 28 false s else s
  else if 0x200 ≤ off ∧ off < 0x240 then putCmd pgAdm off v (ptrWrite ((off - 0x200) / 4) (getF v 0 0)) s
  else if 0x400 ≤ off ∧ off < 0x440 then recipeWrite ((off - 0x400) / 4) v s
  else putPlain pgAdm off v s

/-- A write of TWN_CTRL (R538, R553): ROLE takes a code only while EN is 0, and EN follows it. -/
def twnCtrlWrite (v : Word) (s : State) : State :=
  let en := rb pgTwn 0x100 0 s
  let lk := locked pgTwn s
  let s := recIf lk pgTwn errLOCKWR (recIf (outside pgTwn 0x100 v) pgTwn errRESWR s)
  if lk then s
  else
    let role := getF v 2 1
    let s := if en || decide (role = 3) then recordErr pgTwn errFIELD s else wf pgTwn 0x100 2 1 role s
    enWrite pgTwn (getB v 0) s

/-- A write of TWN_CONFIRM (R555). -/
def confirmCmd (v : Word) (s : State) : State :=
  match getF v 1 0 with
  | 1 => confirmWrite (getF v 31 8) s
  | 2 => denyWrite (getF v 31 8) s
  | _ => recordErr pgTwn errFIELD s

/-- A write of a register of the TWN page (R553, R555). -/
def twnWrite (off : Nat) (v : Word) (s : State) : State :=
  match off with
  | 0x100 => twnCtrlWrite v s
  | 0x108 | 0x10C =>
    let used := decide (twnState s ≠ 0 ∧ twnState s ≠ 6)
    let s := putUnless used pgTwn off v s
    if used then s else recheckNbr 4 s
  | 0x110 | 0x114 | 0x118 => putUnless (decide (twnState s ≠ 0)) pgTwn off v s
  | 0x11C => putCmd pgTwn off v (confirmCmd v) s
  | _ => putPlain pgTwn off v s

/-- A write of a register of the CNT page (R153, R680, R682). -/
def cntWrite (q : Requester) (off : Nat) (v : Word) (s : State) : State :=
  let layer := getF (rdQ q pgCnt 0x400 s) 7 0
  if off = 0x104 then putCmd pgCnt off v (fun s => if getB v 0 then armSnapshot s else s) s
  else if 0x140 ≤ off ∧ off < 0x1C0 then putUnless (!selOk true v) pgCnt off v s
  else if off = 0x400 then putBank q pgCnt off v s
  else if 0x404 ≤ off ∧ off < 0x414 then setLayerWord layer ((off - 0x404) / 4) v s
  else if off = 0x414 then putCmd pgCnt off v (setLayerWord layer 4 (v &&& 0x1F1F1F1F)) s
  else if off = 0x418 then
    putCmd pgCnt off v (fun s => setLayerWord layer 5 (layerWord layer 5 s &&& ~~~(v &&& 0xF)) s) s
  else putPlain pgCnt off v s

/-- A write of an area register of the STRM page (R578, R589): discarded while the selected slot runs. -/
def areaWrite (q : Requester) (off : Nat) (v : Word) (s : State) : State :=
  let n := getF (rdQ q pgStrm 0x100 s) 3 0
  let i := (off - 0x104) / 4
  let st := (slotAt n s).st
  putCmd pgStrm off v (fun s =>
    if st = .running ∨ st = .draining ∨ st = .aborting then recordErr pgStrm errFIELD s
    else { s with ioRegs := SMap.set 0 s.ioRegs (n * 4 + i) (word (inFields ((pgStrm.fields off).getD []) v.toNat)) }) s

/-- A write of a register of the STRM page. -/
def strmWrite (q : Requester) (off : Nat) (v : Word) (s : State) : State :=
  if off = 0x100 ∨ off = 0x130 then putBank q pgStrm off v s
  else if 0x104 ≤ off ∧ off < 0x114 then areaWrite q off v s
  else putPlain pgStrm off v s

/-- A write of a register of the TOP page (R491–R494, R720): a routing word that admission filled stays while LOCAL is set. -/
def topWrite (q : Requester) (off : Nat) (v : Word) (s : State) : State :=
  if 0x140 ≤ off ∧ off < 0x1C0 then putUnless (rb pgTop (off - off % 8) 12 s) pgTop off v s
  else match off with
    | 0x1C4 => rtsetWrite v s
    | 0x200 | 0x30C => putBank q pgTop off v s
    | 0x204 => peerWrite q v s
    | _ => putPlain pgTop off v s

/-- A write of a register of a die page. -/
def dieWrite (q : Requester) (n off : Nat) (v : Word) (s : State) : State :=
  let p := Page.die n
  match p.cls with
  | (1, _) => if off = 0x20C then putBank q p off v s else putPlain p off v s
  | (2, 0) => whiWrite off v s
  | (2, _) => whiSrcWrite n off v s
  | (4, _) => if off = 0x150 then putBank q p off v s else putPlain p off v s
  | (6, _) => if off = 0x180 then putBank q p off v s else putPlain p off v s
  | (7, _) => if off = 0x100 then dztWrite v s else putPlain p off v s
  | (8, i) => if off = 0x100 then rlpWrite i v s else putPlain p off v s
  | (9, i) =>
    if off = 0x100 then
      let second := (List.range 8).any (fun e => decide (e ≠ i) && rb (pgEth e) 0x100 1 s)
      putReg p off (fun lo => decide (lo = 1) && second && getB v 1) v s
    else putPlain p off v s
  | (0x0A, i) =>
    if off = 0x100 then stkCtrlWrite i v s
    else if off = 0x118 then logIf p off (putUnless (grpHeld i s) p off v s) s
    else putPlain p off v s
  | (0x0B, 0) =>
    if off = 0x100 then putCmd p off v (ldcmdWrite v) s
    else if off = 0x140 then putBank q p off v s
    else putPlain p off v s
  | (0x0C, _) => admWrite off v s
  | (0x0D, _) => twnWrite off v s
  | (0x0E, _) => cntWrite q off v s
  | (0x0F, _) => strmWrite q off v s
  | (0x11, _) => topWrite q off v s
  | _ => putPlain p off v s

-- An access at a register address -----------------------------------------------------------------------------------------------

/-- A write of a page's register at an offset. -/
def writeReg (q : Requester) (p : Page) (off : Nat) (v : Word) (s : State) : State :=
  match p with
  | .unit c slot => unitWrite c slot off v s
  | _ =>
    if off < 0x100 then headerWrite p off v s
    else match p with
      | .die n => dieWrite q n off v s
      | .rgn r i => rgnWrite r i off v s
      | .clu c => cluWrite q c off v s
      | .unit _ _ => s

/-- The page and offset that a requester's access reaches (R100, R721, R731): the unit window leads to the registers of the unit that the
requester addresses. None where the address is unmapped. -/
def reach (q : Requester) (ra : Nat) (s : State) : Option (Page × Nat) :=
  (pageOf ra).map (fun x => match x with
    | (.clu c, off) => if 0x800 ≤ off then (.unit c (getF (rdQ q (.clu c) 0x100 s) 6 0), off) else (.clu c, off)
    | y => y)

/-- The page that records what a reserved page meets (R731). -/
def recordPage : Page → Page
  | .rgn r _ => pgRgn r
  | _ => pgDie

/-- A register write of a requester, and its status (R22, R361, R722, R726, R727, R731). -/
def regPut (q : Requester) (ra : Nat) (v : Word) (s : State) : Nat × State :=
  match reach q ra s with
  | none => (stUNMAPPED, if q = .lantern then recordErr pgDie errRESWR s else s)
  | some (p, off) =>
    if !mayWrite q p off then (stDENIED, s)
    else if pageOff p s then (stOFF, s)
    else if p.cls.1 = 0 then (stOK, recordErr (recordPage p) errRESWR s)
    else (stOK, writeReg q p off v s)

/-- A register read of a requester: its status and the word (R361, R722, R723, R731). -/
def regGet (q : Requester) (ra : Nat) (s : State) : Nat × Word × State :=
  match reach q ra s with
  | none => (stUNMAPPED, 0, if q = .lantern then recordErr pgDie errRESWR s else s)
  | some (p, off) =>
    if pageOff p s then (stOFF, 0, s)
    else let (w, s) := readReg q p off s; (stOK, w, s)

/-- REGISTER_WRITE (R20–R24, R721–R731). -/
def execRegisterWrite (q : Requester) (ra : Nat) (v : Word) (s : State) : Host.Outcome State Fault Refusal :=
  let (st, s) := regPut q ra v s
  .next (if st = stOK then s else say .status [reqNo q, st] s)

/-- LATCHED_LO_READ (R108, R729), and every other register read: the word is answered with its status. -/
def execLatchedLoRead (q : Requester) (ra : Nat) (s : State) : Host.Outcome State Fault Refusal :=
  let (st, w, s) := regGet q ra s
  .next (say .regValue [reqNo q, st, w.toNat] s)

/-- STATS_RESET (R737): PG_CTRL of a page is written with its own word and RESET. -/
def execStatsReset (q : Requester) (page : Nat) (s : State) : Host.Outcome State Fault Refusal :=
  match pageOf page with
  | none => execRegisterWrite q page 4 s
  | some (p, _) => execRegisterWrite q (page - page % 4096 + 0x008) (setB (ctrlWord p s) 2 true) s

/-- ERROR_INJECT (R740): PG_ERRSET of a page is written. -/
def execErrorInject (q : Requester) (page : Nat) (v : Word) (s : State) : Host.Outcome State Fault Refusal :=
  execRegisterWrite q (page - page % 4096 + 0x018) v s

/-- LOCK (R743): Lantern writes PG_LOCK of a page with a key. -/
def execLock (page key : Nat) (s : State) : Host.Outcome State Fault Refusal :=
  execRegisterWrite .lantern (page - page % 4096 + 0x030) (word (key % 2 ^ 16 * 2 ^ 16 + 1)) s

/-- UNLOCK (R743). -/
def execUnlock (page key : Nat) (s : State) : Host.Outcome State Fault Refusal :=
  execRegisterWrite .lantern (page - page % 4096 + 0x030) (word (key % 2 ^ 16 * 2 ^ 16 + 2)) s

/-- REGWR (R359, R361): a register write reaches a cluster or region, which answers its status in a REGRSP message. -/
def execRegwr (q : Requester) (ra : Nat) (v : Word) (s : State) : Host.Outcome State Fault Refusal :=
  let (st, s) := regPut q ra v s
  .next (say .guyline [0xB, reqNo q, st, 0] s)

/-- REGRD (R359, R361): a register read reaches a cluster or region, which answers status and word. -/
def execRegrd (q : Requester) (ra : Nat) (s : State) : Host.Outcome State Fault Refusal :=
  let (st, w, s) := regGet q ra s
  .next (say .guyline [0xB, reqNo q, st, w.toNat] s)

end Sys2Proof.Machine
end

