-- ==== Sys2Proof/Machine/Dzit.lean ====
section
/-! DEFINITION. What the messages of the Dzit link do (R34, R40, R566–R584): register access, streams, submits, bytes into stack memory,
attestation; and results and events on their way to the host. -/

namespace Sys2Proof.Machine

-- Register access (R566, R567) ------------------------------------------------------------------------------------------

/-- Read n words from an address, up to the first that fails: its status, the words done (R567). -/
def readWords (q : Requester) : Nat → Nat → State → Nat × List Word × State
  | 0, _, s => (stOK, [], s)
  | n + 1, ra, s =>
    let (st, w, s) := regGet q ra s
    if st ≠ stOK then (st, [], s)
    else
      let (st, ws, s) := readWords q n (ra + 4) s
      (st, w :: ws, s)

/-- Write words from an address, up to the first that fails: its status, how many were done (R567). -/
def writeWords (q : Requester) : List Word → Nat → State → Nat × Nat × State
  | [], _, s => (stOK, 0, s)
  | w :: ws, ra, s =>
    let (st, s) := regPut q ra w s
    if st ≠ stOK then (st, 0, s)
    else
      let (st, n, s) := writeWords q ws (ra + 4) s
      (st, n + 1, s)

/-- Whether a request's address and word count are laid out as R566 has them. -/
def regReqOk (ra count : Nat) : Bool := decide (1 ≤ count ∧ count ≤ 64 ∧ ra % 4 = 0 ∧ ra < 2 ^ 40)

/-- A READ request: its status, response body, and what it did (R566). -/
def readBody (q : Requester) (ra count : Nat) (s : State) : Nat × List Byte × State :=
  if !regReqOk ra count then (stBADMSG, [], s)
  else
    let (st, ws, s) := readWords q count ra s
    (st, leBytes 4 ws.length ++ ws.flatMap (fun w => leBytes 4 w.toNat), s)

/-- A WRITE request: its status, response body, and what it did (R566). -/
def writeBody (q : Requester) (ra : Nat) (ws : List Word) (s : State) : Nat × List Byte × State :=
  if !regReqOk ra ws.length then (stBADMSG, [], s)
  else
    let (st, n, s) := writeWords q ws ra s
    (st, leBytes 4 n, s)

/-- REG_READ (R566, R567); BADMSG where its form is wrong (R581). -/
def execRegRead (h : DHdr) (ra count : Nat) (s : State) : Host.Outcome State Fault Refusal :=
  if !h.ok then .next (badMsg 1 1 h 1 s)
  else
    let (st, b, s) := readBody .dzit ra count s
    .next (answer 1 0x81 st h 8 b s)

/-- REG_WRITE (R566, R567); BADMSG where its form is wrong (R581). -/
def execRegWrite (h : DHdr) (ra : Nat) (words : List Word) (s : State) : Host.Outcome State Fault Refusal :=
  if !h.ok then .next (badMsg 1 2 h (msgSlots (8 + 4 * words.length)) s)
  else
    let (st, b, s) := writeBody .dzit ra words s
    .next (answer 1 0x82 st h (8 + 4 * words.length) b s)

-- Streams (R535, R569–R573) ----------------------------------------------------------------------------------------------

/-- Whether a stream ID lies in the partner's half (R535). -/
def partnersHalf (sid : Nat) (s : State) : Bool := twnOn s && decide (fld sid 19 19 = if twnRole s = 2 then 0 else 1)

/-- The first status of R571 that refuses an OPEN; OK where none does. A key/value cache laid out otherwise than R570 has it is FORMAT. -/
def openStatus (sid : Nat) (b : OpenBody) (s : State) : Nat :=
  let x := slotAt b.slot s
  let len := b.kvcap * b.kvpos
  if 2 ^ 20 ≤ sid ∨ partnersHalf sid s then stSIDRANGE
  else if (strmAt sid s).ent.state ≠ 0 ∨ (SMap.get StreamEnt.free s.twn.ents sid).state = 1 then stINUSE
  else if 15 < b.slot ∨ (x.st ≠ .ready ∧ x.st ≠ .running) then stSLOT
  else if 4 < b.fmtIn ∨ 4 < b.fmtOut ∨ (b.int8exp ≠ 127 ∧ b.fmtIn ≠ 0 ∧ b.fmtOut ≠ 0) ∨ b.rsv ∨ 7 < b.prio ∨ 255 < b.int8exp ∨
      b.kvbase % 64 ≠ 0 ∨ b.kvcap = 0 ∨ 2 ^ 20 < b.kvcap ∨ b.kvpos % 64 ≠ 0 then stFORMAT
  else if b.mirror ∧ (twnState s ≠ 3 ∨ !bit x.feat 3) then stMIRROR
  else if !x.extents.any (fun e => decide (e.1 ≤ b.kvbase ∧ b.kvbase + len ≤ e.1 + e.2)) ∨
      (b.mirror ∧ ¬ (twnSrc s ≤ b.kvbase ∧ b.kvbase + len ≤ twnSrc s + twnLen s)) then stKVRANGE
  else stOK

/-- The entry that an OPEN makes (R570). -/
def openEntry (b : OpenBody) : StreamEnt :=
  { StreamEnt.free with
    state := 1, mirrored := b.mirror, slot := b.slot, prio := b.prio, fmtIn := b.fmtIn, fmtOut := b.fmtOut, int8exp := b.int8exp,
    kvbase := b.kvbase, kvcap := b.kvcap, kvpos := b.kvpos }

/-- OPEN (R570, R571); BADMSG where its form is wrong (R581). -/
def execOpen (h : DHdr) (b : OpenBody) (s : State) : Host.Outcome State Fault Refusal :=
  let st := if h.ok then openStatus h.sid b s else stBADMSG
  let s := if st = stOK then setStrm h.sid ((strmAt h.sid s).opened (openEntry b)) s else s
  .next (strmResp 0x81 st h.sid h.seq true s)

/-- A stream's results, in SEQ order from the next to be sent, become those of a stream that is FREE (R572, R580). -/
def freeResults (sid seqout : Nat) (s : State) : State :=
  let (mine, rest) := s.results.partition (fun r => decide (r.sid = sid) && !r.freed)
  let sorted := (List.range 65).flatMap (fun i => mine.filter (fun r => decide (r.seq = (seqout + i) % 2 ^ 32)))
  { s with results := rest ++ sorted.map (fun r => { r with freed := true }) }

/-- CLOSE (R40, R572, R573): queued submits complete with CLOSED and the response waits for those in batches; an ERROR stream is FREE at
once; a FREE one is answered NOSTREAM; BADMSG where its form is wrong (R581). -/
def execClose (h : DHdr) (s : State) : Host.Outcome State Fault Refusal :=
  let x := strmAt h.sid s
  if !h.ok then .next (badMsg 2 2 h 1 s)
  else match x.ent.state with
  | 0 => .next (strmResp 0x82 stNOSTREAM h.sid h.seq true s)
  | 1 =>
    let s := setStrm h.sid { x with ent := { x.ent with state := 2 } } s
    .next (strmResp 0x82 stOK h.sid h.seq false (completeQueue h.sid stCLOSED s))
  | 2 => .next (strmResp 0x82 stOK h.sid h.seq false s)
  | _ =>
    let s := setStrm h.sid x.gone (freeResults h.sid x.ent.seqout s)
    .next (strmResp 0x82 stOK h.sid h.seq false s)

/-- Form the responses to a stream's CLOSE messages (R564, R573). -/
def closeAnswer (sid : Nat) (s : State) : State :=
  let hit (e : DMsg × Bool) : Bool := decide (e.1.sid = sid ∧ e.1.op = 0x82) && !e.2
  let n := (s.sresp.filter hit).length
  flushResp (grantBack 2 n { s with sresp := s.sresp.map (fun e => if hit e then (e.1, true) else e) })

/-- CLOSE_COMPLETE (R40, R572, R573): once no submit of a closing stream remains in a batch and every result of it has been sent, the
stream is FREE and its closes are answered; so are those of a stream that was freed at once, once its placed submits are answered, whether or
not its ID has been opened again. -/
def execCloseComplete (sid : Nat) (s : State) : Host.Outcome State Fault Refusal :=
  let x := strmAt sid s
  if s.results.any (fun r => decide (r.sid = sid) && (r.freed || decide (x.ent.state = 2))) then .next s
  else if !x.old.isEmpty ∨ (x.ent.state = 2 ∧ !x.placed.isEmpty) then .next s
  else .next (closeAnswer sid (if x.ent.state = 2 then setStrm sid Strm.free s else s))

-- Submits (R574–R577) ---------------------------------------------------------------------------------------------------------

/-- The first status of R575 that refuses a submit, whatever it carries; OK where none does. -/
def submitStatus (h : DHdr) (s : State) : Nat :=
  let e := (strmAt h.sid s).ent
  if e.state = 0 then stNOSTREAM
  else if e.state = 2 then stCLOSED
  else if e.state ≠ 1 then e.endStat
  else if h.seq ≠ e.seqin then stBADSEQ
  else if (e.seqin + 2 ^ 32 - e.seqout) % 2 ^ 32 = 64 then stBUSY
  else stOK

/-- Queue an accepted submit (R575), and place what can be placed (R576). -/
def submitAccept (h : DHdr) (op index : Nat) (elems : List Word) (deadline slots : Nat) (s : State) : State :=
  let x := strmAt h.sid s
  let u : Submit := { seq := h.seq, op := op, index := index, elems := elems, deadline := deadline, arrival := s.arrNo, slots := slots }
  let s := setStrm h.sid { x with queue := x.queue ++ [u], ent := { x.ent with seqin := (x.ent.seqin + 1) % 2 ^ 32, deadline := deadline } }
    { s with arrNo := s.arrNo + 1 }
  fillNext x.ent.slot (countDie 0x80 0 1 s)

/-- A submit: refused BADMSG where a reserved field is set (R581), by the first check of R575 that fails, or accepted. `format` and `nonfinite` are
the last two checks. -/
def submit (h : DHdr) (op index : Nat) (elems : List Word) (deadline slots : Nat) (format nonfinite : Bool) (s : State) : State :=
  let st := submitStatus h s
  if !h.ok then submitRefuse h stBADMSG slots s
  else if st ≠ stOK then submitRefuse h st slots s
  else if format then submitRefuse h stFORMAT slots s
  else if nonfinite then submitRefuse h stNONFINITE slots s
  else submitAccept h op index elems deadline slots s

/-- TOKEN (R574, R575). -/
def execToken (h : DHdr) (deadline index : Nat) (lenOk : Bool) (s : State) : Host.Outcome State Fault Refusal :=
  .next (submit h 1 index [] deadline (msgSlots 16) (!lenOk) false s)

/-- VECTOR (R574, R575, R578): n elements of the stream's input format. -/
def execVector (h : DHdr) (deadline n : Nat) (lenOk : Bool) (elems : List Word) (s : State) : Host.Outcome State Fault Refusal :=
  let e := (strmAt h.sid s).ent
  let format := !lenOk || decide (n % 32 ≠ 0 ∨ n < 32 ∨ 8192 < n ∨ elems.length ≠ n ∨ (ioArea e.slot 0 s).2 < 64 + n / 32 * 34)
  let bad := elems.any (fun v => (edgeVal e.fmtIn e.int8exp v.toNat).isNone)
  .next (submit h 2 n elems deadline (msgSlots (16 + n * edgeWidth e.fmtIn)) format bad s)

/-- NEXT (R574, R575): FORMAT after a VECTOR result. -/
def execNext (h : DHdr) (deadline : Nat) (lenOk : Bool) (s : State) : Host.Outcome State Fault Refusal :=
  let x := strmAt h.sid s
  let vec := x.prevVec && x.queue.isEmpty && x.placed.isEmpty
  .next (submit h 3 0 [] deadline (msgSlots 8) (!lenOk || vec) false s)

/-- SUBMIT_DEADLINE (R577): a queued submit whose deadline has come is completed with DEADLINE. -/
def execSubmitDeadline (sid seq : Nat) (s : State) : Host.Outcome State Fault Refusal :=
  let x := strmAt sid s
  match x.queue.find? (fun u => decide (u.seq = seq)) with
  | none => .next s
  | some u =>
    if u.deadline = 0 ∨ now s < u.deadline then .next s
    else .next (fillNext x.ent.slot (completeSubmit sid stDEADLINE u s))

-- Bytes into stack memory (R568) ---------------------------------------------------------------------------------------------

/-- Ranges that PUT may not touch (R568). -/
def protectedRanges (s : State) : List (Nat × Nat) :=
  sysRanges s ++
    (if twnOn s then [(twnMir s, twnLen s)] else []) ++
    (List.range 16).flatMap (fun n =>
      let x := slotAt n s
      if x.st = .running ∨ x.st = .draining ∨ x.st = .aborting then x.extents else []) ++
    (if ldState s ≠ 0 ∧ s.ld.mode = 1 then [(s.ld.relay, sumN ((shardsOf s.ld.man s).map (·.stored)))] else [])

/-- The status of a PUT (R568). -/
def putStatus (addr : Nat) (rsvOk : Bool) (data : List Byte) (s : State) : Nat :=
  if !rsvOk ∨ addr % 32 ≠ 0 ∨ data.length % 32 ≠ 0 then stBADMSG
  else if (protectedRanges s).any (fun r => overlap r (addr, data.length)) then stPROTECTED
  else if mapTop < addr + data.length then stUNMAPPED
  else if rangeFenced addr data.length s then stFENCED
  else stOK

/-- PUT (R568): the bytes are written, and mirrored where they lie in a source range; a refused write changes no byte. -/
def execPut (h : DHdr) (addr : Nat) (rsvOk : Bool) (data : List Byte) (s : State) : Host.Outcome State Fault Refusal :=
  let st := putStatus addr (rsvOk && h.ok) data s
  .next (answer 5 0x81 st h (32 + data.length) [] (if st = stOK then writeSectors addr data s else s))

/-- ATTEST_REQUEST (R584, R698): the attestation report; DENIED where the device can make none. -/
def execAttestRequest (h : DHdr) (nonce : List Byte) (s : State) : Host.Outcome State Fault Refusal :=
  if nonce.length ≠ 32 ∨ h.ok = false then .next (answer 7 0x81 stBADMSG h nonce.length [] s)
  else match attestReport nonce s with
    | none => .next (answer 7 0x81 stDENIED h 32 [] s)
    | some r => .next (answer 7 0x81 stOK h 32 r s)

-- Towards the host (R544, R564, R580–R583) ---------------------------------------------------------------------------------------

/-- Credits of a class beyond those that messages already waiting will take. -/
def creditsLeft (cls : Nat) (s : State) : Nat :=
  SMap.get 0 s.dz.cred cls - sumN ((s.dz.txq.filter (fun m => m.cls = cls)).map (fun m => msgSlots m.body.length))

/-- Whether a result waits for the commit that covers it (R539, R544). -/
def heldByCommit (r : Res) (s : State) : Bool :=
  match r.exit with
  | none => false
  | some (n, step) => commitsWait s && decide ((slotAt n s).covered ≤ step)

/-- The result of a stream that is next in SEQ order (R580). -/
def nextResult (sid : Nat) (s : State) : Option Res :=
  match s.results.find? (fun r => decide (r.sid = sid) && r.freed) with
  | some r => some r
  | none => s.results.find? (fun r => decide (r.sid = sid ∧ r.seq = (strmAt sid s).ent.seqout))

/-- Whether a result formed at an EXIT waits for the next result of another stream that exited before it (R580). -/
def exitsBefore (r : Res) (s : State) : Bool :=
  r.exited && (s.results.takeWhile (· != r)).any (fun x => x.exited && decide (x.sid ≠ r.sid ∧ nextResult x.sid s = some x))

/-- RESULT_SEND (R34, R544, R580, R582): the next result of a stream leaves once it is not held, no other stream's result exited before it, and
the device has the credits. Results are formed only once the published floor has passed their EXIT step, by when every verdict on their path has
passed. -/
def execResultSend (sid : Nat) (s : State) : Host.Outcome State Fault Refusal :=
  match nextResult sid s with
  | none => .next s
  | some r =>
    if inService s ∨ heldByCommit r s ∨ exitsBefore r s ∨ creditsLeft 4 s < msgSlots r.body.length then .next s
    else
      let s := { s with results := s.results.erase r }
      let s := if r.freed then s
        else updStrm sid (fun x => { x with ent := { x.ent with seqout := (x.ent.seqout + 1) % 2 ^ 32 } }) s
      .next (resultOut r s)

/-- EVENT_SEND (R583): the oldest event leaves while the device holds EVENT credits. -/
def execEventSend (s : State) : Host.Outcome State Fault Refusal :=
  match s.events with
  | [] => .next s
  | (op, body) :: rest =>
    if inService s ∨ creditsLeft 6 s < msgSlots body.length then .next s
    else .next (queueMsg { cls := 6, op := op, status := 0, sid := 0, seq := 0, body := body } { s with events := rest })

end Sys2Proof.Machine
end

