-- ==== Sys2Proof/Machine/Mgmt.lean ====
section
/-! DEFINITION. The management register path (R725, R726). -/

namespace Sys2Proof.Machine

/-- Answer a datagram of the management register path: OP with bit 15 set, STATUS, TAG, and the REG response body (R725). Nothing is
sent in SERVICE (R609). -/
def mgmtRegSay (op status tag : Nat) (body : List Byte) (s : State) : State :=
  if inService s then s else sayBytes .mgmt [0x8000 + op, status, tag] body s

/-- MGMT_REG_READ (R725, R726). -/
def execMgmtRegRead (tag ra count : Nat) (s : State) : Host.Outcome State Fault Refusal :=
  mgmtServed (fun s => let (st, b, s) := readBody .mgmt ra count s; mgmtRegSay 1 st tag b s) s

/-- MGMT_REG_WRITE (R725, R726). -/
def execMgmtRegWrite (tag ra : Nat) (words : List Word) (s : State) : Host.Outcome State Fault Refusal :=
  mgmtServed (fun s => let (st, b, s) := writeBody .mgmt ra words s; mgmtRegSay 2 st tag b s) s

end Sys2Proof.Machine
end

