-- ==== Sys2Proof/Machine/Dispatch.lean ====
section
/-! DEFINITION. The meaning of each command of the operation table. -/

namespace Sys2Proof.Machine

/-- The effect of a command on everything but the queue. -/
def exec (i : Instr) (s : State) : Host.Outcome State Fault Refusal :=
  match i with
  | .registerWrite q ra v => Sys2Proof.Machine.execRegisterWrite q ra v s
  | .latchedLoRead q ra => Sys2Proof.Machine.execLatchedLoRead q ra s
  | .statsReset q page => Sys2Proof.Machine.execStatsReset q page s
  | .errorInject q page v => Sys2Proof.Machine.execErrorInject q page v s
  | .lock page key => Sys2Proof.Machine.execLock page key s
  | .unlock page key => Sys2Proof.Machine.execUnlock page key s
  | .unitRead c u ecc => Sys2Proof.Machine.execUnitRead c u ecc s
  | .readComplete c u errs up2 => Sys2Proof.Machine.execReadComplete c u errs up2 s
  | .programGrant r => Sys2Proof.Machine.execProgramGrant r s
  | .rowPulseVerify c slot verified misread fetched errs => Sys2Proof.Machine.execRowPulseVerify c slot verified misread fetched errs s
  | .spareSubstitute q c n logical planes => Sys2Proof.Machine.execSpareSubstitute q c n logical planes s
  | .spareStandIn q c n logical planes => Sys2Proof.Machine.execSpareStandIn q c n logical planes s
  | .spareIdle q c n => Sys2Proof.Machine.execSpareIdle q c n s
  | .spareReadoutRow c n p row misread fetched => Sys2Proof.Machine.execSpareReadoutRow c n p row misread fetched s
  | .spareLoaded c n checks => Sys2Proof.Machine.execSpareLoaded c n checks s
  | .spareTakeover c n => Sys2Proof.Machine.execSpareTakeover c n s
  | .unitFence q c slot => Sys2Proof.Machine.execUnitFence q c slot s
  | .unitFenceLift q c slot => Sys2Proof.Machine.execUnitFenceLift q c slot s
  | .fenceTakesEffect c slot => Sys2Proof.Machine.execFenceTakesEffect c slot s
  | .marginWrite q c slot code => Sys2Proof.Machine.execMarginWrite q c slot code s
  | .curveDataAccess q c w => Sys2Proof.Machine.execCurveDataAccess q c w s
  | .uatEntryWrite q c hi => Sys2Proof.Machine.execUatEntryWrite q c hi s
  | .redEntryWrite q c hi => Sys2Proof.Machine.execRedEntryWrite q c hi s
  | .rteEntryWrite q c hi => Sys2Proof.Machine.execRteEntryWrite q c hi s
  | .routingTableAccess q c w => Sys2Proof.Machine.execRoutingTableAccess q c w s
  | .precisionEpochReport c => Sys2Proof.Machine.execPrecisionEpochReport c s
  | .recipeSelectWrite q n v => Sys2Proof.Machine.execRecipeSelectWrite q n v s
  | .calChunk c slot task vals => Sys2Proof.Machine.execCalChunk c slot task vals s
  | .baselineClusterVisit r cals checks => Sys2Proof.Machine.execBaselineClusterVisit r cals checks s
  | .coeffWriteback c slot => Sys2Proof.Machine.execCoeffWriteback c slot s
  | .refreshStart c slot p => Sys2Proof.Machine.execRefreshStart c slot p s
  | .refreshOverdue c slot p => Sys2Proof.Machine.execRefreshOverdue c slot p s
  | .trmCmdColRef q r cluster slot => Sys2Proof.Machine.execTrmCmdColRef q r cluster slot s
  | .trmCmdColRefRegion q r => Sys2Proof.Machine.execTrmCmdColRefRegion q r s
  | .trmCmdRes q r cluster slot plane => Sys2Proof.Machine.execTrmCmdRes q r cluster slot plane s
  | .trmCmdRefresh q r cluster slot plane => Sys2Proof.Machine.execTrmCmdRefresh q r cluster slot plane s
  | .reductionContribution c e remote blks => Sys2Proof.Machine.execReductionContribution c e remote blks s
  | .reductionComplete c e ecc => Sys2Proof.Machine.execReductionComplete c e ecc s
  | .laneWordRefill c => Sys2Proof.Machine.execLaneWordRefill c s
  | .ivrOfsWrite q r v => Sys2Proof.Machine.execIvrOfsWrite q r v s
  | .ivrStep r => Sys2Proof.Machine.execIvrStep r s
  | .stvNop k => Sys2Proof.Machine.execStvNop k s
  | .stvGather k base rows rowLen bf16 idx => Sys2Proof.Machine.execStvGather k base rows rowLen bf16 idx s
  | .stvKvappend k pos stride sr key value => Sys2Proof.Machine.execStvKvappend k pos stride sr key value s
  | .stvScore k scale query keys => Sys2Proof.Machine.execStvScore k scale query keys s
  | .stvSoftmax k scores causal => Sys2Proof.Machine.execStvSoftmax k scores causal s
  | .stvWsum k desc weights values => Sys2Proof.Machine.execStvWsum k desc weights values s
  | .stvNorm k rms eps a8 xs gain bias => Sys2Proof.Machine.execStvNorm k rms eps a8 xs gain bias s
  | .stvRope k a8 xs angles => Sys2Proof.Machine.execStvRope k a8 xs angles s
  | .stvTopk k n logits => Sys2Proof.Machine.execStvTopk k n logits s
  | .stvSample k invtemp topk topp logits => Sys2Proof.Machine.execStvSample k invtemp topk topp logits s
  | .stvResadd k sr a8 xs ys => Sys2Proof.Machine.execStvResadd k sr a8 xs ys s
  | .stvEltwise k mul a8 xs ys => Sys2Proof.Machine.execStvEltwise k mul a8 xs ys s
  | .stoveOpComplete r int8 dests => Sys2Proof.Machine.execStoveOpComplete r int8 dests s
  | .stackTransfer r slot idx => Sys2Proof.Machine.execStackTransfer r slot idx s
  | .stackTransferComplete r errs ecc => Sys2Proof.Machine.execStackTransferComplete r errs ecc s
  | .dieWordReach slot => Sys2Proof.Machine.execDieWordReach slot s
  | .gateInstant slot => Sys2Proof.Machine.execGateInstant slot s
  | .regionWordReach slot r => Sys2Proof.Machine.execRegionWordReach slot r s
  | .clusterStepBegin c ecc => Sys2Proof.Machine.execClusterStepBegin c ecc s
  | .clusterStepComplete c => Sys2Proof.Machine.execClusterStepComplete c s
  | .tokenArrival c b => Sys2Proof.Machine.execTokenArrival c b s
  | .floorSample r => Sys2Proof.Machine.execFloorSample r s
  | .admStallTimeout slot => Sys2Proof.Machine.execAdmStallTimeout slot s
  | .admitImage q => Sys2Proof.Machine.execAdmitImage q s
  | .admissionComplete => Sys2Proof.Machine.execAdmissionComplete s
  | .start q slot => Sys2Proof.Machine.execStart q slot s
  | .retire q slot => Sys2Proof.Machine.execRetire q slot s
  | .abort q slot => Sys2Proof.Machine.execAbort q slot s
  | .release q slot => Sys2Proof.Machine.execRelease q slot s
  | .slotStopped slot => Sys2Proof.Machine.execSlotStopped slot s
  | .beatForward c m room => Sys2Proof.Machine.execBeatForward c m room s
  | .dataMessageAccept c m => Sys2Proof.Machine.execDataMessageAccept c m s
  | .ackArrival c b => Sys2Proof.Machine.execAckArrival c b s
  | .refuseArrival c b => Sys2Proof.Machine.execRefuseArrival c b s
  | .multicastReplicate c m entry room => Sys2Proof.Machine.execMulticastReplicate c m entry room s
  | .multicastStall c id => Sys2Proof.Machine.execMulticastStall c id s
  | .linkDown c port ends => Sys2Proof.Machine.execLinkDown c port ends s
  | .clusterFence q c => Sys2Proof.Machine.execClusterFence q c s
  | .guylineWord cls fails => Sys2Proof.Machine.execGuylineWord cls fails s
  | .epochMessage c => Sys2Proof.Machine.execEpochMessage c s
  | .fenceMessage scope index slot lift => Sys2Proof.Machine.execFenceMessage scope index slot lift s
  | .routesw r => Sys2Proof.Machine.execRoutesw r s
  | .gateMessage c step samples => Sys2Proof.Machine.execGateMessage c step samples s
  | .floorMessage c slot floor => Sys2Proof.Machine.execFloorMessage c slot floor s
  | .sampleMessage r samples => Sys2Proof.Machine.execSampleMessage r samples s
  | .recallMessage c step gen => Sys2Proof.Machine.execRecallMessage c step gen s
  | .regwr q ra v => Sys2Proof.Machine.execRegwr q ra v s
  | .regrd q ra => Sys2Proof.Machine.execRegrd q ra s
  | .regrsp q status v => Sys2Proof.Machine.execRegrsp q status v s
  | .verdict c step gen origin cause pitch pslot perm => Sys2Proof.Machine.execVerdict c step gen origin cause pitch pslot perm s
  | .intr r idx => Sys2Proof.Machine.execIntr r idx s
  | .counts c ev => Sys2Proof.Machine.execCounts c ev s
  | .rangeMessage c step bslot pitch => Sys2Proof.Machine.execRangeMessage c step bslot pitch s
  | .memrd m errs => Sys2Proof.Machine.execMemrd m errs s
  | .memwr m data causes => Sys2Proof.Machine.execMemwr m data causes s
  | .memrsp dest line status data bad => Sys2Proof.Machine.execMemrsp dest line status data bad s
  | .patrolRead n err temp => Sys2Proof.Machine.execPatrolRead n err temp s
  | .stackFence q n => Sys2Proof.Machine.execStackFence q n s
  | .stackFenceComplete n => Sys2Proof.Machine.execStackFenceComplete n s
  | .load q mode plane up down => Sys2Proof.Machine.execLoad q mode plane up down s
  | .loadAbort q => Sys2Proof.Machine.execLoadAbort q s
  | .loadAck q => Sys2Proof.Machine.execLoadAck q s
  | .manifestCheckComplete => Sys2Proof.Machine.execManifestCheckComplete s
  | .claimComplete => Sys2Proof.Machine.execClaimComplete s
  | .shardBytes source bytes => Sys2Proof.Machine.execShardBytes source bytes s
  | .shardFetchTimeout => Sys2Proof.Machine.execShardFetchTimeout s
  | .bandProcess tensor tk => Sys2Proof.Machine.execBandProcess tensor tk s
  | .tileRecordWrite c u p off sys parity data => Sys2Proof.Machine.execTileRecordWrite c u p off sys parity data s
  | .loadCheck checks => Sys2Proof.Machine.execLoadCheck checks s
  | .logbookWriteComplete copy ok => Sys2Proof.Machine.execLogbookWriteComplete copy ok s
  | .planePointerWrite q slot ptr => Sys2Proof.Machine.execPlanePointerWrite q slot ptr s
  | .codewordReceive p cw => Sys2Proof.Machine.execCodewordReceive p cw s
  | .replayTimeout p => Sys2Proof.Machine.execReplayTimeout p s
  | .laneFail p lane syms => Sys2Proof.Machine.execLaneFail p lane syms s
  | .lanemap p lanes cwno => Sys2Proof.Machine.execLanemap p lanes cwno s
  | .trainComplete p good => Sys2Proof.Machine.execTrainComplete p good s
  | .trainRetry p signal => Sys2Proof.Machine.execTrainRetry p signal s
  | .signalLoss p => Sys2Proof.Machine.execSignalLoss p s
  | .retrain q p => Sys2Proof.Machine.execRetrain q p s
  | .ident p coord port lxm1 lym1 id valid => Sys2Proof.Machine.execIdent p coord port lxm1 lym1 id valid s
  | .linkwaitExpiry p => Sys2Proof.Machine.execLinkwaitExpiry p s
  | .dataFlit p f => Sys2Proof.Machine.execDataFlit p f s
  | .ingressToken p src step => Sys2Proof.Machine.execIngressToken p src step s
  | .recallFlit p f => Sys2Proof.Machine.execRecallFlit p f s
  | .shreq p prefix16 shard off => Sys2Proof.Machine.execShreq p prefix16 shard off s
  | .shdata p shard off bytes => Sys2Proof.Machine.execShdata p shard off bytes s
  | .shref p shard code => Sys2Proof.Machine.execShref p shard code s
  | .linkActionStart p => Sys2Proof.Machine.execLinkActionStart p s
  | .holdConfirm p => Sys2Proof.Machine.execHoldConfirm p s
  | .recallFlitSend slot => Sys2Proof.Machine.execRecallFlitSend slot s
  | .ethFrameReceive e f => Sys2Proof.Machine.execEthFrameReceive e f s
  | .sdtData e path psn flits => Sys2Proof.Machine.execSdtData e path psn flits s
  | .sdtAck e path ackpsn sack => Sys2Proof.Machine.execSdtAck e path ackpsn sack s
  | .sdtOpen e path => Sys2Proof.Machine.execSdtOpen e path s
  | .sdtOpenack e path => Sys2Proof.Machine.execSdtOpenack e path s
  | .sdtError e path code psn => Sys2Proof.Machine.execSdtError e path code psn s
  | .sdtAckTimer e path => Sys2Proof.Machine.execSdtAckTimer e path s
  | .sdtRto e path psn => Sys2Proof.Machine.execSdtRto e path psn s
  | .peerDataAccess q w => Sys2Proof.Machine.execPeerDataAccess q w s
  | .epochIn => Sys2Proof.Machine.execEpochIn s
  | .rtsetArm q hi => Sys2Proof.Machine.execRtsetArm q hi s
  | .ptpMessage e time lock => Sys2Proof.Machine.execPtpMessage e time lock s
  | .errorRecordResend => Sys2Proof.Machine.execErrorRecordResend s
  | .regionFence q r => Sys2Proof.Machine.execRegionFence q r s
  | .regionPowerOff r => Sys2Proof.Machine.execRegionPowerOff r s
  | .stressTestStart c slot => Sys2Proof.Machine.execStressTestStart c slot s
  | .stressPhaseComplete c slot pass => Sys2Proof.Machine.execStressPhaseComplete c slot pass s
  | .pairEnable q => Sys2Proof.Machine.execPairEnable q s
  | .heartSend => Sys2Proof.Machine.execHeartSend s
  | .heart m => Sys2Proof.Machine.execHeart m s
  | .heartTimeout => Sys2Proof.Machine.execHeartTimeout s
  | .confirm q id => Sys2Proof.Machine.execConfirm q id s
  | .deny q id => Sys2Proof.Machine.execDeny q id s
  | .heldStreamTake sid => Sys2Proof.Machine.execHeldStreamTake sid s
  | .commitSend slot => Sys2Proof.Machine.execCommitSend slot s
  | .mirrorStream ents => Sys2Proof.Machine.execMirrorStream ents s
  | .mirrorWrite src data => Sys2Proof.Machine.execMirrorWrite src data s
  | .mirrorSlot idx => Sys2Proof.Machine.execMirrorSlot idx s
  | .mirrorCommit num step slot => Sys2Proof.Machine.execMirrorCommit num step slot s
  | .commitAckSend => Sys2Proof.Machine.execCommitAckSend s
  | .mirrorResult msg => Sys2Proof.Machine.execMirrorResult msg s
  | .mirrorAck num => Sys2Proof.Machine.execMirrorAck num s
  | .mirrorHandoff sids => Sys2Proof.Machine.execMirrorHandoff sids s
  | .syncComplete => Sys2Proof.Machine.execSyncComplete s
  | .frameSend => Sys2Proof.Machine.execFrameSend s
  | .sofMark inTol marks => Sys2Proof.Machine.execSofMark inTol marks s
  | .dzitSlot d => Sys2Proof.Machine.execDzitSlot d s
  | .dzitTrainComplete good pathfinder => Sys2Proof.Machine.execDzitTrainComplete good pathfinder s
  | .dzitRetrain q => Sys2Proof.Machine.execDzitRetrain q s
  | .regRead h ra count => Sys2Proof.Machine.execRegRead h ra count s
  | .regWrite h ra words => Sys2Proof.Machine.execRegWrite h ra words s
  | .open h b => Sys2Proof.Machine.execOpen h b s
  | .close h => Sys2Proof.Machine.execClose h s
  | .closeComplete sid => Sys2Proof.Machine.execCloseComplete sid s
  | .token h deadline index lenOk => Sys2Proof.Machine.execToken h deadline index lenOk s
  | .vector h deadline n lenOk elems => Sys2Proof.Machine.execVector h deadline n lenOk elems s
  | .next h deadline lenOk => Sys2Proof.Machine.execNext h deadline lenOk s
  | .submitDeadline sid seq => Sys2Proof.Machine.execSubmitDeadline sid seq s
  | .put h addr rsvOk data => Sys2Proof.Machine.execPut h addr rsvOk data s
  | .attestRequest h nonce => Sys2Proof.Machine.execAttestRequest h nonce s
  | .resultFormation slot => Sys2Proof.Machine.execResultFormation slot s
  | .resultSend sid => Sys2Proof.Machine.execResultSend sid s
  | .eventSend => Sys2Proof.Machine.execEventSend s
  | .refLock => Sys2Proof.Machine.execRefLock s
  | .refHoldover => Sys2Proof.Machine.execRefHoldover s
  | .refMarks => Sys2Proof.Machine.execRefMarks s
  | .reset boardPos devPos => Sys2Proof.Machine.execReset boardPos devPos s
  | .regionPowerStage => Sys2Proof.Machine.execRegionPowerStage s
  | .svcWarn => Sys2Proof.Machine.execSvcWarn s
  | .damperPeriod => Sys2Proof.Machine.execDamperPeriod s
  | .qmaxRecompute pOther vdd coreA power => Sys2Proof.Machine.execQmaxRecompute pOther vdd coreA power s
  | .throttleTimer r => Sys2Proof.Machine.execThrottleTimer r s
  | .snsConversion r microvolt temp16 => Sys2Proof.Machine.execSnsConversion r microvolt temp16 s
  | .droopTrigger r uv ns => Sys2Proof.Machine.execDroopTrigger r uv ns s
  | .thermalTrigger r temp16 => Sys2Proof.Machine.execThermalTrigger r temp16 s
  | .stormTrigger r => Sys2Proof.Machine.execStormTrigger r s
  | .swtrig q r => Sys2Proof.Machine.execSwtrig q r s
  | .snsStart q r => Sys2Proof.Machine.execSnsStart q r s
  | .snsResClaim q r => Sys2Proof.Machine.execSnsResClaim q r s
  | .coalesceTimer src => Sys2Proof.Machine.execCoalesceTimer src s
  | .whiClaim q t => Sys2Proof.Machine.execWhiClaim q t s
  | .deviceClaim t => Sys2Proof.Machine.execDeviceClaim t s
  | .whiComplete q t src => Sys2Proof.Machine.execWhiComplete q t src s
  | .whiSetpend q src => Sys2Proof.Machine.execWhiSetpend q src s
  | .whiEnable q => Sys2Proof.Machine.execWhiEnable q s
  | .whiCfgWrite q src v => Sys2Proof.Machine.execWhiCfgWrite q src v s
  | .epochSnapshot => Sys2Proof.Machine.execEpochSnapshot s
  | .cntSnapcmd q => Sys2Proof.Machine.execCntSnapcmd q s
  | .commandSnapshot => Sys2Proof.Machine.execCommandSnapshot s
  | .startupStageComplete copyA copyB kept rates => Sys2Proof.Machine.execStartupStageComplete copyA copyB kept rates s
  | .attest nonce => Sys2Proof.Machine.execAttest nonce s
  | .provision key => Sys2Proof.Machine.execProvision key s
  | .rotate key sig => Sys2Proof.Machine.execRotate key sig s
  | .commitsvn => Sys2Proof.Machine.execCommitsvn s
  | .patch bx by_ lxm1 lym1 => Sys2Proof.Machine.execPatch bx by_ lxm1 lym1 s
  | .trail set => Sys2Proof.Machine.execTrail set s
  | .errack seq => Sys2Proof.Machine.execErrack seq s
  | .mgmtRegRead tag ra count => Sys2Proof.Machine.execMgmtRegRead tag ra count s
  | .mgmtRegWrite tag ra words => Sys2Proof.Machine.execMgmtRegWrite tag ra words s
  | .call p trail hops => Sys2Proof.Machine.execCall p trail hops s
  | .report p r => Sys2Proof.Machine.execReport p r s
  | .table p trail round seg lxm1 lym1 present ids => Sys2Proof.Machine.execTable p trail round seg lxm1 lym1 present ids s
  | .rollcallTableBuild => Sys2Proof.Machine.execRollcallTableBuild s
  | .rstNFall => Sys2Proof.Machine.execRstNFall s
  | .powerLoss => Sys2Proof.Machine.execPowerLoss s
  | .svcWarnHigh => Sys2Proof.Machine.execSvcWarnHigh s

end Sys2Proof.Machine
end

