-- ==== Sys2Proof/Machine/Tick.lean ====
section
/-! DEFINITION. One period of rack time, in which no command arrives. -/

namespace Sys2Proof.Machine

/-- WCLK cycles in a period of rack time: 400 MHz against 100 MHz (R482, R593). -/
def wclks : Nat := 4

/-- Count what the event counters count in every WCLK cycle for a running cluster (R680): the cycles it waits, by what it waits for. -/
def tickClu (c : Nat) (s : State) : State :=
  let w := stepStat c s
  let r := regionOf c
  let add (code : Nat) (b : Bool) (s : State) : State := if b then countRgn r code wclks s else s
  add 0x25 (getB w 6) (add 0x24 (getB w 5) (add 0x23 (getB w 7) (add 0x22 (decide (getF w 15 9 ≠ 0)) (add 0x21 (getB w 3) s))))

/-- Count the cycles of a region: WCLK itself, and those with a Stove pipe busy (R680). -/
def tickRgn (r : Nat) (s : State) : State :=
  let x := rgnAt r s
  if x.off then s
  else
    let busy (int8 : Bool) : Bool := x.jobs.any (fun j => j.run && (j.int8 == int8))
    let s := countRgn r 0x01 wclks s
    let s := if busy true then countRgn r 0x39 wclks s else s
    if busy false then countRgn r 0x3A wclks s else s

/-- A period of rack time passes (R482): rack time counts it, paced paths send (R479), and the event counters count its WCLK cycles (R679, R680). Everything else
that time brings about is a command. -/
def tick (s : State) : State :=
  let s := sdtTick { s with rack := s.rack + 1 }
  let s := foldRange 64 tickRgn (countDie 0x01 0 wclks s)
  (List.range 16).foldl (fun s n => (slotClusters (slotAt n s)).foldl (fun s c => tickClu c s) s) s

end Sys2Proof.Machine
end

