-- ==== Sys2Proof/WellFormed.lean ====
section
/-! DEFINITION. Well-formed commands: each operand names a place that the device has. A meaning never asks for it. -/

namespace Sys2Proof

/-- Whether a number is below a bound. -/
def below (n x : Nat) : Bool := decide (x < n)

/-- A register address: 40 bits, a multiple of 4 (R721, R723). -/
def okRa (ra : Nat) : Bool := decide (ra < 2 ^ 40 ∧ ra % 4 = 0)

/-- A cluster (R8). -/
def okClu (c : Nat) : Bool := below 16384 c

/-- A logical unit of a cluster (R8). -/
def okUnit (u : Nat) : Bool := below 64 u

/-- A physical slot of a cluster (R9). -/
def okPhys (k : Nat) : Bool := below 68 k

/-- A region (R8). -/
def okRgn (r : Nat) : Bool := below 64 r

/-- An image slot (R296). -/
def okImg (n : Nat) : Bool := below 16 n

/-- A stack (R372). -/
def okStk (n : Nat) : Bool := below 20 n

/-- A Ralpor port (R442). -/
def okPort (p : Nat) : Bool := below 5 p

/-- A Ralpor port, or the Dzit link as port 13 (R442, R560). -/
def okLink (p : Nat) : Bool := okPort p || decide (p = 13)

/-- A Stove operation's region. -/
def okStv (k : StvCtx) : Bool := okRgn k.r

/-- An Ethernet port (R473). -/
def okEth (e : Nat) : Bool := below 8 e

/-- A Whistle target (R671). -/
def okTarget (t : Nat) : Bool := below 7 t

/-- A well-formed command. -/
def Instr.wf (i : Instr) : Bool :=
  match i with
  | .registerWrite _ ra _ => okRa ra
  | .latchedLoRead _ ra => okRa ra
  | .statsReset _ page => okRa page
  | .errorInject _ page _ => okRa page
  | .lock page key => okRa page && below 0x10000 key
  | .unlock page key => okRa page && below 0x10000 key
  | .unitRead c u _ => okClu c && okUnit u
  | .readComplete c u _ _ => okClu c && okUnit u
  | .programGrant r => okRgn r
  | .rowPulseVerify c slot _ _ _ _ => okClu c && okPhys slot
  | .spareSubstitute _ c n logical planes => okClu c && below 4 n && okUnit logical && below 4 planes
  | .spareStandIn _ c n logical planes => okClu c && below 4 n && okUnit logical && below 4 planes
  | .spareIdle _ c n => okClu c && below 4 n
  | .spareReadoutRow c n p row _ _ => okClu c && below 4 n && below 2 p && below 128 row
  | .spareLoaded c n _ => okClu c && below 4 n
  | .spareTakeover c n => okClu c && below 4 n
  | .unitFence _ c slot => okClu c && okPhys slot
  | .unitFenceLift _ c slot => okClu c && okPhys slot
  | .fenceTakesEffect c slot => okClu c && okPhys slot
  | .marginWrite _ c slot code => okClu c && okPhys slot && below 8 code
  | .curveDataAccess _ c _ => okClu c
  | .uatEntryWrite _ c _ => okClu c
  | .redEntryWrite _ c _ => okClu c
  | .rteEntryWrite _ c _ => okClu c
  | .routingTableAccess _ c _ => okClu c
  | .precisionEpochReport c => okClu c
  | .recipeSelectWrite _ n _ => below 16 n
  | .calChunk c slot _ _ => okClu c && okPhys slot
  | .baselineClusterVisit r _ _ => okRgn r
  | .coeffWriteback c slot => okClu c && okPhys slot
  | .refreshStart c slot p => okClu c && okPhys slot && below 2 p
  | .refreshOverdue c slot p => okClu c && okPhys slot && below 2 p
  | .trmCmdColRef _ r cluster slot => okRgn r && below 256 cluster && below 128 slot
  | .trmCmdColRefRegion _ r => okRgn r
  | .trmCmdRes _ r cluster slot plane => okRgn r && below 256 cluster && below 128 slot && below 2 plane
  | .trmCmdRefresh _ r cluster slot plane => okRgn r && below 256 cluster && below 128 slot && below 2 plane
  | .reductionContribution c e _ _ => okClu c && below 32 e
  | .reductionComplete c e _ => okClu c && below 32 e
  | .laneWordRefill c => okClu c
  | .ivrOfsWrite _ r _ => okRgn r
  | .ivrStep r => okRgn r
  | .stvNop k => okStv k
  | .stvGather k _ _ _ _ _ => okStv k
  | .stvKvappend k _ _ _ _ _ => okStv k
  | .stvScore k _ _ _ => okStv k
  | .stvSoftmax k _ _ => okStv k
  | .stvWsum k _ _ _ => okStv k
  | .stvNorm k _ _ _ _ _ _ => okStv k
  | .stvRope k _ _ _ => okStv k
  | .stvTopk k _ _ => okStv k
  | .stvSample k _ _ _ _ => okStv k
  | .stvResadd k _ _ _ _ => okStv k
  | .stvEltwise k _ _ _ _ => okStv k
  | .stoveOpComplete r _ _ => okRgn r
  | .stackTransfer r slot _ => okRgn r && okImg slot
  | .stackTransferComplete r _ _ => okRgn r
  | .dieWordReach slot => okImg slot
  | .gateInstant slot => okImg slot
  | .regionWordReach slot r => okImg slot && okRgn r
  | .clusterStepBegin c _ => okClu c
  | .clusterStepComplete c => okClu c
  | .tokenArrival c _ => okClu c
  | .floorSample r => okRgn r
  | .admStallTimeout slot => okImg slot
  | .admitImage _ => true
  | .admissionComplete => true
  | .start _ slot => okImg slot
  | .retire _ slot => okImg slot
  | .abort _ slot => okImg slot
  | .release _ slot => okImg slot
  | .slotStopped slot => okImg slot
  | .beatForward c _ _ => okClu c
  | .dataMessageAccept c _ => okClu c
  | .ackArrival c _ => okClu c
  | .refuseArrival c _ => okClu c
  | .multicastReplicate c _ entry _ => okClu c && below 256 entry
  | .multicastStall c _ => okClu c
  | .linkDown c port ends => okClu c && below 5 port && below 70 ends.1 && below 70 ends.2
  | .clusterFence _ c => okClu c
  | .guylineWord cls _ => below 16 cls
  | .epochMessage c => okClu c
  | .fenceMessage _ _ slot _ => below 128 slot
  | .routesw r => okRgn r
  | .gateMessage c _ _ => okClu c
  | .floorMessage c slot _ => okClu c && okImg slot
  | .sampleMessage r _ => okRgn r
  | .recallMessage c _ _ => okClu c
  | .regwr _ ra _ => okRa ra
  | .regrd _ ra => okRa ra
  | .regrsp _ _ _ => true
  | .verdict c _ _ _ _ _ pslot _ => okClu c && below 256 pslot
  | .intr r i => okRgn r && below 16 i
  | .counts c _ => okClu c
  | .rangeMessage c _ _ _ => okClu c
  | .memrd _ _ => true
  | .memwr _ _ _ => true
  | .memrsp _ _ _ _ _ => true
  | .patrolRead n _ temp => okStk n && (match temp with | none => true | some t => below 16 t.1)
  | .stackFence _ n => okStk n
  | .stackFenceComplete n => okStk n
  | .load _ mode plane up down => below 4 mode && below 4 plane && below 16 up && below 16 down
  | .loadAbort _ => true
  | .loadAck _ => true
  | .manifestCheckComplete => true
  | .claimComplete => true
  | .shardBytes _ _ => true
  | .shardFetchTimeout => true
  | .bandProcess _ _ => true
  | .tileRecordWrite c u p _ _ _ _ => okClu c && okUnit u && below 2 p
  | .loadCheck _ => true
  | .logbookWriteComplete copy _ => below 3 copy
  | .planePointerWrite _ slot ptr => okImg slot && below 2 ptr
  | .codewordReceive p _ => okPort p
  | .replayTimeout p => okLink p
  | .laneFail p lane _ => okLink p && below 9 lane
  | .lanemap p _ _ => okLink p
  | .trainComplete p _ => okPort p
  | .trainRetry p _ => okLink p
  | .signalLoss p => okLink p
  | .retrain _ p => okPort p
  | .ident p _ _ _ _ _ _ => okPort p
  | .linkwaitExpiry p => okPort p
  | .dataFlit p _ => okPort p
  | .ingressToken p _ _ => okPort p
  | .recallFlit p _ => okPort p
  | .shreq p _ _ _ => okPort p
  | .shdata p _ _ _ => okPort p
  | .shref p _ _ => okPort p
  | .linkActionStart p => okPort p
  | .holdConfirm p => okPort p
  | .recallFlitSend slot => okImg slot
  | .ethFrameReceive e _ => okEth e
  | .sdtData e _ _ _ => okEth e
  | .sdtAck e _ _ _ => okEth e
  | .sdtOpen e _ => okEth e
  | .sdtOpenack e _ => okEth e
  | .sdtError e _ _ _ => okEth e
  | .sdtAckTimer e _ => okEth e
  | .sdtRto e _ _ => okEth e
  | .peerDataAccess _ _ => true
  | .epochIn => true
  | .rtsetArm _ _ => true
  | .ptpMessage e _ _ => okEth e
  | .errorRecordResend => true
  | .regionFence _ r => okRgn r
  | .regionPowerOff r => okRgn r
  | .stressTestStart c slot => okClu c && okPhys slot
  | .stressPhaseComplete c slot _ => okClu c && okPhys slot
  | .pairEnable _ => true
  | .heartSend => true
  | .heart _ => true
  | .heartTimeout => true
  | .confirm _ id => below 0x1000000 id
  | .deny _ id => below 0x1000000 id
  | .heldStreamTake sid => below 0x100000 sid
  | .commitSend slot => okImg slot
  | .mirrorStream _ => true
  | .mirrorWrite _ _ => true
  | .mirrorSlot _ => true
  | .mirrorCommit _ _ slot => okImg slot
  | .commitAckSend => true
  | .mirrorResult _ => true
  | .mirrorAck _ => true
  | .mirrorHandoff _ => true
  | .syncComplete => true
  | .frameSend => true
  | .sofMark _ _ => true
  | .dzitSlot _ => true
  | .dzitTrainComplete _ _ => true
  | .dzitRetrain _ => true
  | .regRead _ _ _ => true
  | .regWrite _ _ _ => true
  | .open _ _ => true
  | .close _ => true
  | .closeComplete _ => true
  | .token _ _ _ _ => true
  | .vector _ _ _ _ _ => true
  | .next _ _ _ => true
  | .submitDeadline _ _ => true
  | .put _ _ _ _ => true
  | .attestRequest _ _ => true
  | .resultFormation slot => okImg slot
  | .resultSend _ => true
  | .eventSend => true
  | .refLock => true
  | .refHoldover => true
  | .refMarks => true
  | .reset _ devPos => below 0x10000 devPos
  | .regionPowerStage => true
  | .svcWarn => true
  | .damperPeriod => true
  | .qmaxRecompute _ _ _ _ => true
  | .throttleTimer r => okRgn r
  | .snsConversion r _ _ => okRgn r
  | .droopTrigger r _ _ => okRgn r
  | .thermalTrigger r _ => okRgn r
  | .stormTrigger r => okRgn r
  | .swtrig _ r => okRgn r
  | .snsStart _ r => okRgn r
  | .snsResClaim _ r => okRgn r
  | .coalesceTimer src => below 2048 src
  | .whiClaim _ t => okTarget t
  | .deviceClaim t => okTarget t
  | .whiComplete _ t _ => okTarget t
  | .whiSetpend _ src => below 2048 src
  | .whiEnable _ => true
  | .whiCfgWrite _ src _ => below 2048 src
  | .epochSnapshot => true
  | .cntSnapcmd _ => true
  | .commandSnapshot => true
  | .startupStageComplete _ _ _ _ => true
  | .attest _ => true
  | .provision _ => true
  | .rotate _ _ => true
  | .commitsvn => true
  | .patch bx by_ lxm1 lym1 => below 32 bx && below 32 by_ && below 32 lxm1 && below 32 lym1
  | .trail _ => true
  | .errack _ => true
  | .mgmtRegRead _ _ _ => true
  | .mgmtRegWrite _ _ _ => true
  | .call p _ _ => okPort p
  | .report p _ => okPort p
  | .table p _ _ _ _ _ _ _ => okPort p
  | .rollcallTableBuild => true
  | .rstNFall => true
  | .powerLoss => true
  | .svcWarnHigh => true

end Sys2Proof
end

