-- ==== Sys2Proof/Safety.lean ====
section
/-! DEFINITION. What a safe state and a safe queue are, and the terms that statements use: a command that completes, and what it leaves as
it was. -/

namespace Sys2Proof.Machine

/-- Stack memory is in its canonical form: keys strictly rising, no byte equal to what an unlisted key reads as. -/
def State.memOk (s : State) : Prop := Memory.wf s.mem = true

/-- Every command that waits is well-formed. -/
def State.queueOk (s : State) : Prop := ∀ i ∈ s.pending, i.wf = true

/-- A step goes on: it stops neither with a fault nor with a refusal. -/
def State.goesOn (s : State) : Prop := ∃ t, step s = .next t

/-- A command completes with a state that has a property. -/
def Answers (i : Instr) (s : State) (P : State → Prop) : Prop := ∃ t, exec i s = .next t ∧ P t

/-- Every byte of every stack reads as before. -/
def sameMem (s t : State) : Prop := ∀ n loc, locByte n loc t = locByte n loc s

/-- A page that the register map has (R721, R749). -/
def Page.real (p : Page) : Bool :=
  match p with
  | .die n => decide (n < 4096)
  | .rgn r i => decide (r < 64 ∧ i < 256)
  | .clu c => decide (c < 16384)
  | .unit c slot => decide (c < 16384 ∧ slot < 68)

/-- Registers that the reporting of an event may change: PG_ERR and PG_ERRCNT of any page, the Whistle source pages, the count of Logbook
records, the event counters with their overflow bits, and the run bits of a sense converter. -/
def reportReg (p : Page) (off : Nat) : Bool :=
  decide (off = 0x010 ∨ off = 0x01C) ||
    (match p with
     | .die n => decide (2 ≤ n ∧ n ≤ 9) || decide (n = 0x40 ∧ off = 0x108) || decide (n = 0xF0 ∧ (off = 0x108 ∨ 0x200 ≤ off ∧ off < 0x300))
     | .rgn _ 2 => decide (off = 0x104 ∨ off = 0x110)
     | .rgn _ 4 => decide (off = 0x108 ∨ 0x180 ≤ off ∧ off < 0x1C0)
     | _ => false)

/-- Every register of every page reads as before, but for those named and those that reporting changes. -/
def sameRegs (named : Page → Nat → Bool) (s t : State) : Prop :=
  ∀ p off, p.real = true → off < 4096 → named p off = false → reportReg p off = false → rd p off t = rd p off s

/-- No register is named. -/
def noReg : Page → Nat → Bool := fun _ _ => false

/-- One register is named. -/
def oneReg (p : Page) (off : Nat) : Page → Nat → Bool := fun p' off' => decide (p' = p ∧ off' = off)

/-- A Stove operation runs that did not run: its region, code and pipe, its Damper request, and a property of it (R246, R611). -/
def StoveRuns (k : StvCtx) (code : Nat) (int8 : Bool) (s t : State) (Q : StvJob → Prop) : Prop :=
  (∃ j ∈ (rgnAt k.r t).jobs, j.run = true ∧ j.code = code ∧ j.slot = k.slot ∧ j.int8 = int8 ∧ Q j) ∧
    rb (pgStv k.r) 0x100 (if int8 then 0 else 1) t = true ∧
    (rgnAt k.r t).asks = (rgnAt k.r s).asks ++ [{ who := .stove int8, whole := stoveCharge int8, got := 0 }]

end Sys2Proof.Machine
end

