-- ==== Sys2Proof/Certificates/Slice0/Obligations.lean ====
section
/-! DEFINITION. The statements of this row, each named and in the terms of Safety. A conclusion `Answers i s P` says that the command
completes in the state `s` and that the state after it has the property `P`. -/

section

open Sys2Proof Sys2Proof.Machine

-- The whole machine -----------------------------------------------------------------------------------------------------

/-- A step runs the command at the front of the queue on the state with the queue's rest. -/
def Obligations.StepFront : Prop :=
  ∀ (i : Instr) (rest : List Instr) (s : State), s.pending = i :: rest → step s = exec i { s with pending := rest }

/-- With an empty queue a period of rack time passes (the model's choice, log entry 3): rack time rises by one, modulo its width, the
queue stays empty, and no stack byte, lock, unit, cluster, image slot or register but the reports of events is touched. -/
def Obligations.StepIdle : Prop :=
  ∀ s : State, s.pending = [] → ∃ t, step s = .next t ∧ t.rack = s.rack + 1 ∧ t.pending = [] ∧ t.mem = s.mem ∧ t.locks = s.locks ∧
    t.units = s.units ∧ t.clus = s.clus ∧ t.slots = s.slots ∧ sameRegs noReg s t

/-- No step stops: every command of the table, and the passing of time, leads to a next state. -/
def Obligations.EveryStepGoesOn : Prop := ∀ s : State, s.goesOn

/-- Stack memory keeps its canonical form over every step, from every state that has it. -/
def Obligations.StepKeepsMemory : Prop := ∀ s t : State, s.memOk → step s = .next t → t.memOk

/-- Stack memory has its canonical form at reset, and every byte of every stack reads 0. What reset leaves that the spec states: every page
unlocked with key 0 (R743), an empty queue, slots 0 to 63 of a cluster serving their own logical unit and the spares none (R9), ADM_STALL.TIME
1,000 (R315), and STK_SCRUB.HOURS 8 (R395). -/
def Obligations.AtReset : Prop :=
  (State.reset.memOk ∧ ∀ n loc, locByte n loc State.reset = 0) ∧
  ((∀ p : Page, locked p State.reset = false) ∧ State.reset.pending = [] ∧
    (∀ c k, k < 64 → (unitAt c k State.reset).serves = some k) ∧ (∀ c k, 64 ≤ k → (unitAt c k State.reset).serves = none) ∧
    rf pgAdm 0x134 15 0 State.reset = 1000 ∧ (∀ n, n < 20 → rf (pgStk n) 0x114 7 0 State.reset = 8))

/-- No command reads or changes the queue of the commands that wait. -/
def Obligations.CommandsKeepQueue : Prop :=
  ∀ (i : Instr) (s t : State), exec i s = .next t → t.pending = s.pending

/-- Whether a command may store to stack memory: data, tile and cache bytes, records of batches and results, the stream table and the
result log in the system areas, what start-up and the loss of power leave, and the write-back of a sector that the code miscorrects (R378, R379). -/
def Sys2Proof.Machine.storesMem (i : Instr) : Bool :=
  match i with
  | .memwr _ _ _ | .stvKvappend _ _ _ _ _ _ | .stackTransferComplete _ _ _ | .put _ _ _ _ | .mirrorWrite _ _ | .shardBytes _ _
  | .shdata _ _ _ _ | .startupStageComplete _ _ _ _ | .rstNFall | .powerLoss | .abort _ _ | .close _ | .closeComplete _
  | .clusterStepComplete _ | .commitAckSend | .confirm _ _ | .deviceClaim _ | .dieWordReach _ | .heart _ | .heldStreamTake _
  | .mgmtRegWrite _ _ _ | .mirrorHandoff _ | .next _ _ _ | .open _ _ | .regWrite _ _ _ | .registerWrite _ _ _ | .regwr _ _ _
  | .resultFormation _ | .resultSend _ | .slotStopped _ | .stackFence _ _ | .statsReset _ _ | .submitDeadline _ _ | .token _ _ _ _
  | .vector _ _ _ _ _ => true
  | .memrd _ errs => errs.any wrongSect
  | .patrolRead _ err _ => err.any wrongSect
  | .stvNop k | .stvGather k _ _ _ _ _ | .stvScore k _ _ _ | .stvSoftmax k _ _ | .stvWsum k _ _ _ | .stvNorm k _ _ _ _ _ _ | .stvRope k _ _ _
  | .stvTopk k _ _ | .stvSample k _ _ _ _ | .stvResadd k _ _ _ _ | .stvEltwise k _ _ _ _ => k.errs.any wrongSect
  | _ => false

/-- Only the commands that store to stacks change a byte of them. -/
def Obligations.MemoryFrame : Prop :=
  ∀ (i : Instr) (s t : State), storesMem i = false → exec i s = .next t → sameMem s t

/-- Whether a command is a register write by Lantern. -/
def Sys2Proof.Machine.lanternWrite (i : Instr) : Bool :=
  match i with
  | .registerWrite .lantern _ _ | .regwr .lantern _ _ | .lock _ _ | .unlock _ _ => true
  | _ => false

/-- Write locks change only by Lantern's register writes (R743): no other requester, message or event of the device moves one. -/
def Obligations.OnlyLanternLocks : Prop :=
  ∀ (i : Instr) (s t : State), lanternWrite i = false → i ≠ .rstNFall → i ≠ .powerLoss → exec i s = .next t → t.locks = s.locks

-- Registers (R20–R24, R361, R721–R744) ---------------------------------------------------------------------------------------

/-- Fields of a register do not overlap and lie in its 32 bits. -/
def Sys2Proof.Machine.fieldsApart (fs : List Field) : Prop :=
  (∀ f ∈ fs, f.lo ≤ f.hi ∧ f.hi < 32) ∧ fs.Pairwise (fun f g => f.hi < g.lo ∨ g.hi < f.lo)

/-- A register's fields each take what their access code says, on their own bits alone (R20, R22): every other bit keeps its value, and a
non-zero write of a bit outside every field is seen. -/
def Obligations.FieldsWriteApart : Prop :=
  ∀ (fs : List Field) (lk : Bool) (held : Nat → Bool) (old v : Nat), fieldsApart fs → v < 2 ^ 32 →
    (∀ f ∈ fs, fld (writeFields fs lk held old v).w f.hi f.lo =
      (fieldWrite lk (held f.lo) (fld old f.hi f.lo) (fld v f.hi f.lo) f).1 % 2 ^ (f.hi + 1 - f.lo)) ∧
    (∀ i, (∀ f ∈ fs, i < f.lo ∨ f.hi < i) → bit (writeFields fs lk held old v).w i = bit old i) ∧
    ((writeFields fs lk held old v).rsv = true ↔ ∃ i, (∀ f ∈ fs, i < f.lo ∨ f.hi < i) ∧ bit v i = true)

/-- A register write of a requester that may write it, to the CLK, LOG, RGN or STV page, leaves the word that the register's access codes
give, and every other register and every byte as it was. -/
def Obligations.RegisterWriteTakes : Prop :=
  ∀ (q : Requester) (ra : Nat) (v : Word) (s : State) (p : Page) (off : Nat), pageOf ra = some (p, off) → 0x100 ≤ off →
    p.cls.1 = 3 ∨ p.cls.1 = 5 ∨ p.cls.1 = 0x20 ∨ p.cls.1 = 0x23 → mayWrite q p off = true → pageOff p s = false →
    Answers (.registerWrite q ra v) s (fun t =>
      rd p off t = word (writeFields ((p.fields off).getD []) (locked p s) (fun _ => false) (rd p off s).toNat v.toNat).w ∧
      sameRegs (oneReg p off) s t ∧ sameMem s t ∧ t.locks = s.locks)

/-- The LO and HI registers of a pair that latches (R108, R729): a read of LO answers the present word and keeps what HI holds then for that
requester alone; from then on, in any state with the same latches, that requester's read of HI answers what was kept. -/
def Obligations.LatchedPair : Prop :=
  ∀ (q q' : Requester) (ra : Nat) (s u : State) (p : Page) (off : Nat), q ≠ q' → reach q ra s = some (p, off) →
    reach q (ra + 4) u = some (p, off + 4) →
    latchesHi p off = true → isLatched p off = false → (p.fields off).isSome = true → (p.fields (off + 4)).isSome = true →
    pageOff p s = false → pageOff p u = false →
    Answers (.latchedLoRead q ra) s (fun t =>
      t.out = s.out ++ [{ kind := .regValue, args := [reqNo q, stOK, (regNow q p off s).toNat], blks := [], bytes := [] }] ∧
      t.regs = s.regs ∧ t.mem = s.mem ∧
      (u.latch = t.latch → Answers (.latchedLoRead q (ra + 4)) u (fun x =>
        x = say .regValue [reqNo q, stOK, (regNow q p (off + 4) s).toNat] u)) ∧
      getLatch q' p (off + 4) t = getLatch q' p (off + 4) s)

/-- A statistics reset of an unlocked page (R737): PG_ERR and PG_ERRCNT become 0, and on a cluster page the events of all 68 unit windows. Error
injection (R740): with TEST each bit written is set in PG_ERR; without TEST PG_ERR stays and PG_ERRCNT rises by one. -/
def Obligations.StatisticsAndInjection : Prop :=
  (∀ (q : Requester) (page : Nat) (s : State) (p : Page) (off : Nat), pageOf page = some (p, off) → p.cls.1 ≠ 0 →
    mayWrite q p 0x008 = true → pageOff p s = false → locked p s = false →
    Answers (.statsReset q page) s (fun t =>
      rd p 0x010 t = 0 ∧ rd p 0x01C t = 0 ∧ t.locks = s.locks ∧
      ∀ c, p = .clu c → ∀ k, k < 68 → ∀ b, b < 8 → rb (.unit c k) 0x81C b t = false)) ∧
  (∀ (q : Requester) (page : Nat) (v : Word) (s : State) (p : Page) (off : Nat), pageOf page = some (p, off) → p.cls.1 ≠ 0 →
    mayWrite q p 0x018 = true → pageOff p s = false → getF v 31 9 = 0 →
    (rb p 0x008 3 s = true → Answers (.errorInject q page v) s (fun t =>
      (∀ b, b < 9 → getB v b = true → rb p 0x010 b t = true) ∧ sameMem s t)) ∧
    (rb p 0x008 3 s = false → Answers (.errorInject q page v) s (fun t =>
      rd p 0x010 t = rd p 0x010 s ∧ rf p 0x01C 31 0 t = satAdd 32 (rf p 0x01C 31 0 s) 1 ∧ sameMem s t)))

/-- PG_LOCK (R743): it reads 0, and is written by Lantern alone; every page is unlocked at reset with key 0; LOCK, UNLOCK and the reserved
code do as the rule says, with their events. -/
def Obligations.PageLockKeys : Prop :=
  (∀ p : Page, SMap.get 0 State.reset.locks p.base = 0 ∧ locked p State.reset = false) ∧
  ∀ (p : Page) (off page key : Nat) (q : Requester) (v : Word) (s : State), pageOf page = some (p, off) → p.cls.1 ≠ 0 →
    pageOff p s = false → key < 2 ^ 16 →
    Answers (.latchedLoRead q (page - page % 4096 + 0x030)) s (fun t => t = say .regValue [reqNo q, stOK, 0] s) ∧
    (q ≠ .lantern → Answers (.registerWrite q (page - page % 4096 + 0x030) v) s (fun t => t = say .status [reqNo q, stDENIED] s)) ∧
    (getF v 1 0 = 0 → getF v 15 2 = 0 → Answers (.registerWrite .lantern (page - page % 4096 + 0x030) v) s (fun t => t = s)) ∧
    (getF v 1 0 = 3 → Answers (.registerWrite .lantern (page - page % 4096 + 0x030) v) s (fun t =>
      t.locks = s.locks ∧ rb p 0x010 errFIELD t = true)) ∧
    (locked p s = false → key ≠ 0 → Answers (.lock page key) s (fun t =>
      locked p t = true ∧ SMap.get 0 t.locks p.base = key ∧ (∀ k, k ≠ p.base → SMap.get 0 t.locks k = SMap.get 0 s.locks k) ∧
      t.regs = s.regs ∧ t.mem = s.mem)) ∧
    (locked p s = true ∨ key = 0 → Answers (.lock page key) s (fun t => t.locks = s.locks ∧ rb p 0x010 errOPIGN t = true)) ∧
    (locked p s = false → Answers (.unlock page key) s (fun t => t.locks = s.locks ∧ rb p 0x010 errOPIGN t = true)) ∧
    (locked p s = true → SMap.get 0 s.locks p.base = key → Answers (.unlock page key) s (fun t =>
      locked p t = false ∧ (∀ k, k ≠ p.base → SMap.get 0 t.locks k = SMap.get 0 s.locks k) ∧ t.regs = s.regs ∧ t.mem = s.mem)) ∧
    (locked p s = true → SMap.get 0 s.locks p.base ≠ key → Answers (.unlock page key) s (fun t =>
      t.locks = s.locks ∧ rb p 0x010 errLOCKWR t = true ∧ rf p 0x01C 31 0 t = satAdd 32 (rf p 0x01C 31 0 s) 1))

/-- A reserved page (R731): every offset reads 0, so that its PG_ID reads class 0; a write to it is recorded as RESWR in PG_ERR of the DIE
page for a die page, or of the region's RGN page for a region page. A page of a region without power answers OFF, a read with 0 and a write
without effect (R361; that a reserved page does so too is the model's reading, log entry 116). -/
def Obligations.ReservedPage : Prop :=
  ∀ (q : Requester) (ra : Nat) (v : Word) (s : State) (p : Page) (off : Nat), pageOf ra = some (p, off) → p.cls.1 = 0 →
    (pageOff p s = false → Answers (.latchedLoRead q ra) s (fun t => t = say .regValue [reqNo q, stOK, 0] s) ∧
      (mayWrite q p off = true → Answers (.registerWrite q ra v) s (fun t =>
        rb (match p with | .rgn r _ => pgRgn r | _ => pgDie) 0x010 errRESWR t = true ∧ sameMem s t))) ∧
    (pageOff p s = true → Answers (.latchedLoRead q ra) s (fun t => t = say .regValue [reqNo q, stOFF, 0] s) ∧
      (mayWrite q p off = true → Answers (.registerWrite q ra v) s (fun t => t = say .status [reqNo q, stOFF] s)))

/-- Accesses that arrive over the Guyline (R359, R361): a page that is off answers OFF, a read with 0 and a write without effect; else the
word of the register is answered, and a write to the RGN or STV page leaves what its access codes give. -/
def Obligations.GuylineAccess : Prop :=
  ∀ (q : Requester) (ra : Nat) (v : Word) (s : State) (p : Page) (off : Nat), reach q ra s = some (p, off) →
    (pageOff p s = true → Answers (.regrd q ra) s (fun t => t = say .guyline [0xB, reqNo q, stOFF, 0] s)) ∧
    (pageOff p s = true → mayWrite q p off = true → Answers (.regwr q ra v) s (fun t => t = say .guyline [0xB, reqNo q, stOFF, 0] s)) ∧
    (pageOff p s = false → Answers (.regrd q ra) s (fun t =>
      t.out = (readReg q p off s).2.out ++
        [{ kind := .guyline, args := [0xB, reqNo q, stOK, (readReg q p off s).1.toNat], blks := [], bytes := [] }] ∧ sameMem s t)) ∧
    (pageOff p s = false → mayWrite q p off = true → p.cls.1 = 0x20 ∨ p.cls.1 = 0x23 → 0x100 ≤ off → p.real = true → off < 4096 →
      Answers (.regwr q ra v) s (fun t =>
        rd p off t = word (writeFields ((p.fields off).getD []) (locked p s) (fun _ => false) (rd p off s).toNat v.toNat).w ∧
        t.out.getLast? = some { kind := .guyline, args := [0xB, reqNo q, stOK, 0], blks := [], bytes := [] } ∧
        sameRegs (oneReg p off) s t ∧ sameMem s t))

/-- An address that decodes to no page (R722): a read answers 0 with UNMAPPED and a write has no effect but its status; for Lantern RESWR
is set in PG_ERR of the DIE page. -/
def Obligations.UnmappedAccess : Prop :=
  ∀ (q : Requester) (ra : Nat) (v : Word) (s : State), pageOf ra = none →
    (q ≠ .lantern → Answers (.latchedLoRead q ra) s (fun t => t = say .regValue [reqNo q, stUNMAPPED, 0] s)) ∧
    (q ≠ .lantern → Answers (.registerWrite q ra v) s (fun t => t = say .status [reqNo q, stUNMAPPED] s)) ∧
    Answers (.latchedLoRead .lantern ra) s (fun t => rb pgDie 0x010 errRESWR t = true ∧ sameRegs noReg s t ∧ sameMem s t ∧
      t.out.getLast? = some { kind := .regValue, args := [0, stUNMAPPED, 0], blks := [], bytes := [] }) ∧
    Answers (.registerWrite .lantern ra v) s (fun t => rb pgDie 0x010 errRESWR t = true ∧ sameRegs noReg s t ∧ sameMem s t ∧
      t.locks = s.locks)

/-- A counter that passes 2^48 − 1 (R681) wraps to its remainder and keeps counting; the wrap sets its bit in CNT_OVFSTAT or RCN_OVFSTAT and
the OVF flag of its next snapshot, and fires CNT_OVF, or sends RCN_OVF of the region. -/
def Obligations.CounterWrap : Prop :=
  ∀ (i n r : Nat) (s : State), i < 32 → r < 64 → n < 2 ^ 48 →
    (2 ^ 48 ≤ rd64 pgCnt (0x200 + 8 * i) s + n → rd64 pgCnt (0x200 + 8 * i) s < 2 ^ 48 →
      let t := counterAdd pgCnt 0x200 99 i n s
      rd64 pgCnt (0x200 + 8 * i) t = rd64 pgCnt (0x200 + 8 * i) s + n - 2 ^ 48 ∧ rb pgCnt 0x108 i t = true ∧
      pgCnt.base + i ∈ t.ovfNext ∧ rf (srcPage 99) (srcOff 0x900 99) 15 0 t = satAdd 16 (rf (srcPage 99) (srcOff 0x900 99) 15 0 s) 1) ∧
    (i < 8 → (rgnAt r s).off = false → 2 ^ 48 ≤ rd64 (pgRcn r) (0x180 + 8 * i) s + n → rd64 (pgRcn r) (0x180 + 8 * i) s < 2 ^ 48 →
      let t := counterAdd (pgRcn r) 0x180 (rgnSrc r 12) i n s
      rd64 (pgRcn r) (0x180 + 8 * i) t = rd64 (pgRcn r) (0x180 + 8 * i) s + n - 2 ^ 48 ∧ rb (pgRcn r) 0x108 i t = true ∧
      (pgRcn r).base + i ∈ t.ovfNext ∧
      t.out = s.out ++ [{ kind := .guyline, args := [9, r, 12], blks := [], bytes := [] }])

/-- Rounding to nearest (R124): rne(q) is the integer nearest to q, and a tie goes to the even integer; q is a quotient with a positive
divisor. -/
def Obligations.RoundNearestEven : Prop :=
  ∀ (a : Int) (d : Nat), 0 < d →
    2 * (rneDiv a d * d - a).natAbs ≤ d ∧ (2 * (rneDiv a d * d - a).natAbs = d → rneDiv a d % 2 = 0)

-- Units: reads (R53–R111) -------------------------------------------------------------------------------------------------

/-- What UNIT_READ needs of a state to act (R53): the slot that serves the unit, an action of the step in progress that is not a fence's and whose
output does not wait for room already, and its inputs complete, which gives the blocks and the state that has taken them. -/
def Sys2Proof.Machine.unitReady (c u slot : Nat) (ecc : List (Nat × Bool)) (half : List Blk) (s s1 : State) : Prop :=
  c < 16384 ∧ physOf c u s = some slot ∧ (cluAt c s).acts.contains u = true ∧ (unitAt c slot s).cur = none ∧ (unitAt c slot s).fenced = false ∧
    isStuck c u s = false ∧ takeInputs c slot (actionOf (cluAt c s) u) ((cluAt c s).next - 1) ecc s = some (half, s1)

/-- UNIT_READ (R46–R50, R53): a FORWARD passes its blocks to a reduction entry; an illegal READ completes with cause ILLEGAL and its event; a READ
of a plane that is not RESIDENT completes with cause PLANE and its event; in each case the action is done, unless its output goes to a unit of the
cluster and waits there for room (R214). UNIT_READ of a RESIDENT plane with
inputs that are not all zero (R53): the read starts, holds its inputs and plane, and its action stays open until it completes. -/
def Obligations.UnitReads : Prop :=
  (∀ (c u slot : Nat) (ecc : List (Nat × Bool)) (half : List Blk) (s s1 : State), unitReady c u slot ecc half s s1 →
    let e := actionOf (cluAt c s) u
    let joined := rb (.unit c slot) 0x80C 0 s
    let ended (t : State) : Prop := (cluAt c t).acts.contains u = isStuck c u t ∧ (uaDest e ≠ 3 → isStuck c u t = false)
    (uaKind e = 2 → Answers (.unitRead c u ecc) s (fun t =>
      ended t ∧ sameMem s t ∧
      (uaDest e = 1 → pathDown c (outPath c u 1 (uaDaddr e) s1) s1 = false → t.out.getLast? = some { kind := .contribution, args := [c, uaDaddr e % 32, 0], blks := half, bytes := [] }))) ∧
    (uaKind e ≠ 2 → readIllegal e (unitAt c slot s) joined half = true → Answers (.unitRead c u ecc) s (fun t =>
      ended t ∧ (unitAt c slot t).lastCause = causeIllegal ∧ rb (.unit c slot) 0x81C 3 t = true ∧ sameMem s t)) ∧
    (uaKind e ≠ 2 → readIllegal e (unitAt c slot s) joined half = false →
      ((unitAt c slot s).plane (readPlane e half)).st ≠ .resident → Answers (.unitRead c u ecc) s (fun t =>
      ended t ∧ (unitAt c slot t).lastCause = causePlane ∧ rb (.unit c slot) 0x81C 4 t = true ∧ sameMem s t))) ∧
  (∀ (c u slot : Nat) (ecc : List (Nat × Bool)) (half : List Blk) (s s1 : State), unitReady c u slot ecc half s s1 →
    let e := actionOf (cluAt c s) u
    let step := (cluAt c s).next - 1
    let p := readPlane e half
    let d := descFor c (uaDesc e) (wideFor c (uaDesc e) s) s
    let h := nth (zeroBlk .a8 false 0 0 0 0) half 0
    uaKind e ≠ 2 → readIllegal e (unitAt c slot s) (rb (.unit c slot) 0x80C 0 s) half = false → ((unitAt c slot s).plane p).st = .resident →
    allZero d half (fun i => if d.alnSr then some (draw16 0 (unitOrigin c u) h.sid step i) else none) = false →
    Answers (.unitRead c u ecc) s (fun t =>
      (∃ op, (unitAt c slot t).cur = some op ∧ op.plane = p ∧ op.half = half ∧ op.step = step ∧ op.dest = uaDest e ∧ op.daddr = uaDaddr e) ∧
      (unitAt c slot t).half = half ∧ (unitAt c slot t).hasRead = true ∧ (cluAt c t).acts = (cluAt c s1).acts ∧ (cluAt c t).acts.contains u = true ∧
      sameMem s t))

/-- READ_COMPLETE of a read whose charge is granted (R69, R108, R613): the read count rises by one, the read is over, its action is done, unless
its output waits for room at a unit (R214), and its charge is given back. PROGRAM_GRANT (R52, R85, R87): the oldest request that may run takes a
programming slot; its plane enters PROGRAMMING at row 0 and its wear count rises by one; a refresh that had given its slot up goes on at its row.
Where a refresh with a row in progress stands in the way of that request (R187), it is told to give way. -/
def Obligations.ReadAndProgramming : Prop :=
  (∀ (c u slot : Nat) (op : ReadOp) (errs : List ConvErr) (up2 : List Nat) (s : State), c < 16384 → physOf c u s = some slot →
    (unitAt c slot s).cur = some op → op.need = 0 → Answers (.readComplete c u errs up2) s (fun t =>
      (unitAt c slot t).cur = none ∧ (unitAt c slot t).holding = 0 ∧ (isStuck c u t = false → (cluAt c t).acts.contains u = false) ∧
      (op.dest ≠ 3 → isStuck c u t = isStuck c u s) ∧
      rd64 (.unit c slot) 0x824 t = (rd64 (.unit c slot) 0x824 s + 1) % 2 ^ 48 ∧ sameMem s t)) ∧
  (∀ (r : Nat) (q : PgmReq) (s : State), r < 64 → q.unit < 16384 * 128 → q.plane < 2 →
    (rgnAt r s).fenced = false → (rgnAt r s).off = false →
    (rgnAt r s).queue.find? (fun q => mayGrant r q s || (inTheWay r q s).isSome) = some q →
    let c := q.unit / 128
    let k := q.unit % 128
    let y := (unitAt c k s).plane q.plane
    let takes (t : State) : Prop := (rgnAt r t).queue = (rgnAt r s).queue.erase q ∧ (rgnAt r t).active = (rgnAt r s).active ++ [q] ∧ sameMem s t
    (mayGrant r q s = true → y.paused = none → Answers (.programGrant r) s (fun t =>
      takes t ∧ ((unitAt c k t).plane q.plane).st = .programming ∧
      rf (.unit c k) (0x834 + 4 * q.plane) 31 0 t = satAdd 32 (rf (.unit c k) (0x834 + 4 * q.plane) 31 0 s) 1 ∧
      pgmRow c k t = 0)) ∧
    (∀ row, row < 128 → mayGrant r q s = true → y.paused = some row → Answers (.programGrant r) s (fun t =>
      takes t ∧ ((unitAt c k t).plane q.plane).st = y.st ∧ ((unitAt c k t).plane q.plane).paused = none ∧
      sameRegs (oneReg (.unit c k) 0x830) s t ∧ pgmRow c k t = row)) ∧
    (∀ a, inTheWay r q s = some a → rowOpen ((unitAt (a.unit / 128) (a.unit % 128) s).plane a.plane) = true → Answers (.programGrant r) s (fun t =>
      ((unitAt (a.unit / 128) (a.unit % 128) t).plane a.plane).yields = true ∧ t.rgns = s.rgns ∧ t.regs = s.regs ∧ t.mem = s.mem)))

-- Units: programming, spares, fences, margin codes ----------------------------------------------------------------------------

/-- ROW_PULSE_VERIFY (R82, R83): a verified row is in the plane and the next row follows; the last row of a load leaves the plane CHECKING and
its slot; a pulse that does not verify is counted, and at MAXPULSE the plane of a refresh or a spare is FAULTED with PGMFAIL, and so is the spare
(R95). A slot that may not have a pulse stays as it is. A refresh programs its row as it is read out, or as the manifest's sources supply it where
it fails its residue test; with neither the plane is FAULTED (R186). A refresh told to give way leaves its slot when its row ends (R187; that it
goes on later at its next row is the model's choice, log entry 94). -/
def Obligations.RowPulses : Prop :=
  ∀ (c slot p : Nat) (misread : List (Nat × Nat)) (fetched : Option (List Byte)) (errs : List (Nat × ConvErr)) (s : State),
    c < 16384 → slot < 68 → pgmPlane c slot s = some p →
    let y := (unitAt c slot s).plane p
    let row := pgmRow c slot s
    let pulseGiven (v : Bool) (Q : State → Prop) : Prop := Answers (.rowPulseVerify c slot v misread fetched errs) s Q
    let data : Option Row :=
      if y.kind = .refresh ∧ rowOpen y = false then refreshRow (SMap.get Row.empty y.rows row) misread fetched
      else some (SMap.get Row.empty (if y.kind = .refresh then y.rows else y.goal) row)
    (pulseMay c slot y s = false → ∀ v, pulseGiven v (fun t => t = s)) ∧
    (pulseMay c slot y s = true → data = none → ∀ v, pulseGiven v (fun t =>
      ((unitAt c slot t).plane p).st = .faulted ∧ rb (.unit c slot) 0x81C 5 t = true ∧
      { kind := OutKind.xfer, args := [0x96, c, slot, p, row], blks := [], bytes := [] } ∈ t.out ∧
      (∀ a ∈ (rgnAt (regionOf c) t).active, ¬ (a.unit = ukey c slot ∧ a.plane = p)) ∧ sameMem s t)) ∧
    ∀ d, pulseMay c slot y s = true → data = some d → y.kind = .refresh ∨ y.goal.any (fun e => e.1 = row) = true →
    (row < 127 → y.yields = false → pulseGiven true (fun t =>
      SMap.get Row.empty ((unitAt c slot t).plane p).rows row = d ∧
      pgmRow c slot t = row + 1 ∧ ((unitAt c slot t).plane p).st = .programming ∧ sameMem s t)) ∧
    (row < 127 → y.yields = true → y.kind = .refresh → s.ld.claims = [] → pulseGiven true (fun t =>
      SMap.get Row.empty ((unitAt c slot t).plane p).rows row = d ∧ ((unitAt c slot t).plane p).paused = some (row + 1) ∧
      (∀ a ∈ (rgnAt (regionOf c) t).active, ¬ (a.unit = ukey c slot ∧ a.plane = p)) ∧ sameMem s t)) ∧
    (row = 127 → y.kind = .load → y.yields = false → pulseGiven true (fun t =>
      ((unitAt c slot t).plane p).st = .checking ∧
      (∀ a ∈ (rgnAt (regionOf c) t).active, ¬ (a.unit = ukey c slot ∧ a.plane = p)) ∧ sameMem s t)) ∧
    (y.pulses + 1 < rf (.unit c slot) 0x830 20 16 s → pulseGiven false (fun t =>
      ((unitAt c slot t).plane p).pulses = y.pulses + 1 ∧
      ((unitAt c slot t).plane p).rows = (if y.kind = .refresh then SMap.set Row.empty y.rows row d else y.rows) ∧
      pgmRow c slot t = row ∧ sameMem s t)) ∧
    (rf (.unit c slot) 0x830 20 16 s ≤ y.pulses + 1 → y.kind = .refresh ∨ (y.kind = .spare ∧ ldBusy s = false) → pulseGiven false (fun t =>
      ((unitAt c slot t).plane p).st = .faulted ∧ rb (.unit c slot) 0x81C 5 t = true ∧
      (y.kind = .spare → 64 ≤ slot → spareSt c (slot - 64) t = 5) ∧ sameMem s t))

/-- The commands of a spare's control register (R93–R95): SUBSTITUTE and STAND-IN of an IDLE spare, for a unit that no other spare names, start
its load with one request per plane; IDLE while it loads or waits, or is faulted, sends it back, and it holds no weights (R92). A spare's load and its taking over (R95,
R96): a row read out that passes the residue test becomes the spare's, for one that fails the row that the manifest's sources supply does, and with
none of them the spare is FAULTED; a spare whose planes pass their checks is READY, its planes RESIDENT, one whose planes fail is FAULTED; at the
unit's boundary a READY spare takes the logical unit over, the original fenced (SUBSTITUTE, or an original under a fence) or under test (STAND-IN),
and one sent IDLE gives it back and holds no weights; an original that leaves the under-test role is due calibration (R180). -/
def Obligations.Spares : Prop :=
  (∀ (q : Requester) (c n logical planes : Nat) (s : State), c < 16384 → n < 4 → logical < 64 → planes < 4 →
    mayWrite q (.clu c) (0x180 + 4 * n) = true → pageOff (.clu c) s = false →
    let off := 0x180 + 4 * n
    let asks : List PgmReq := (sparePlanes c logical planes s).map (fun p => { unit := ukey c (64 + n), plane := p, kind := .spare })
    (spareSt c n s = 0 → (∀ m, m < 4 → m ≠ n → rf (.clu c) (0x180 + 4 * m) 10 8 s = 0 ∨ rf (.clu c) (0x180 + 4 * m) 5 0 s ≠ logical) →
      Answers (.spareSubstitute q c n logical planes) s (fun t =>
        spareSt c n t = 1 ∧ rf (.clu c) off 10 8 t = 1 ∧ rf (.clu c) off 5 0 t = logical ∧ rf (.clu c) off 13 12 t = planes ∧
        (rgnAt (regionOf c) t).queue = (rgnAt (regionOf c) s).queue ++ asks ∧ sameRegs (oneReg (.clu c) off) s t ∧ sameMem s t) ∧
      Answers (.spareStandIn q c n logical planes) s (fun t =>
        spareSt c n t = 1 ∧ rf (.clu c) off 10 8 t = 2 ∧ rf (.clu c) off 5 0 t = logical ∧ rf (.clu c) off 13 12 t = planes ∧
        (rgnAt (regionOf c) t).queue = (rgnAt (regionOf c) s).queue ++ asks ∧ sameRegs (oneReg (.clu c) off) s t ∧ sameMem s t)) ∧
    (spareSt c n s = 1 ∨ spareSt c n s = 2 ∨ spareSt c n s = 5 → Answers (.spareIdle q c n) s (fun t =>
      spareSt c n t = 0 ∧ rf (.clu c) off 10 8 t = 0 ∧ rf (.clu c) off 5 0 t = rf (.clu c) off 5 0 s ∧
      (spareSt c n s ≠ 5 → ∀ a ∈ (rgnAt (regionOf c) t).queue, a.unit = ukey c (64 + n) → 2 ≤ a.plane) ∧
      (spareSt c n s ≠ 5 → ((unitAt c (64 + n) t).plane 0).st = .blank ∧ ((unitAt c (64 + n) t).plane 1).st = .blank) ∧
      sameRegs (fun p o => oneReg (.clu c) off p o || oneReg (.unit c (64 + n)) 0x830 p o) s t ∧ sameMem s t))) ∧
  (∀ (c n p row : Nat) (misread : List (Nat × Nat)) (fetched : Option (List Byte)) (checks : List CheckErr) (s : State),
    c < 16384 → n < 4 → p < 2 →
    let l := rf (.clu c) (0x180 + 4 * n) 5 0 s
    let mode := rf (.clu c) (0x180 + 4 * n) 10 8 s
    (∀ o, physOf c l s = some o → spareSt c n s = 1 → (cluAt c s).acts.contains l = false ∨ (unitAt c o s).fenced = true →
      let x := SMap.get Row.empty ((unitAt c o s).plane p).rows row
      let lv := readOut x.levels misread
      let asks : Out := { kind := .xfer, args := [0x96, c, o, p, row], blks := [], bytes := [] }
      (residueOk lv x.res = true → Answers (.spareReadoutRow c n p row misread fetched) s (fun t =>
        SMap.get Row.empty ((unitAt c (64 + n) t).plane p).goal row = { levels := lv, res := x.res } ∧ t.regs = s.regs ∧ t.mem = s.mem)) ∧
      (∀ f, residueOk lv x.res = false → fetchedRow fetched = some f → Answers (.spareReadoutRow c n p row misread fetched) s (fun t =>
        SMap.get Row.empty ((unitAt c (64 + n) t).plane p).goal row = f ∧ t.out = s.out ++ [asks] ∧ t.regs = s.regs ∧ t.mem = s.mem)) ∧
      (residueOk lv x.res = false → fetchedRow fetched = none → Answers (.spareReadoutRow c n p row misread fetched) s (fun t =>
        spareSt c n t = 5 ∧ asks ∈ t.out ∧ sameMem s t))) ∧
    (∀ o, physOf c l s = some o → spareSt c n s = 1 → cluIdle c s = false →
      let planes := sparePlanes c l (rf (.clu c) (0x180 + 4 * n) 13 12 s) s
      planes.all (fun p => ((unitAt c (64 + n) s).plane p).st = .checking) = true →
      let ok := (spareChecks c n planes checks s).1.isEmpty
      Answers (.spareLoaded c n checks) s (fun t => spareSt c n t = (if ok then 2 else 5) ∧
        (ok = true → (∀ i ∈ planes, ((unitAt c (64 + n) t).plane i).st = .resident) ∧
          rd (.unit c (64 + n)) 0x80C t = rd (.unit c o) 0x80C s) ∧ sameMem s t)) ∧
    (∀ o, o < 64 → physOf c l s = some o → spareSt c n s = 2 → mode = 1 ∨ mode = 2 → atBoundary c s = true → slotQuiet c (64 + n) s = true →
      slotQuiet c l s = true →
      let sub := decide (mode = 1) || (unitAt c o s).fenced
      Answers (.spareTakeover c n) s (fun t =>
        (unitAt c (64 + n) t).serves = some l ∧ (unitAt c o t).serves = none ∧ (unitAt c o t).fenced = sub ∧
        (unitAt c o t).underTest = !sub ∧ spareSt c n t = (if sub then 3 else 4) ∧ sameMem s t)) ∧
    (spareSt c n s = 3 ∨ spareSt c n s = 4 → mode = 0 → atBoundary c s = true → slotQuiet c (64 + n) s = true → slotQuiet c l s = true →
      Answers (.spareTakeover c n) s (fun t =>
        (unitAt c l t).serves = some l ∧ (unitAt c (64 + n) t).serves = none ∧ spareSt c n t = 0 ∧
        ((unitAt c (64 + n) t).plane 0).st = .blank ∧ ((unitAt c (64 + n) t).plane 1).st = .blank ∧
        ((unitAt c l s).underTest = true → (unitAt c l s).fenced = false → (l, [0, 1, 2]) ∈ (cluAt c t).recal) ∧ sameMem s t)))

/-- UNIT_FENCE, UNIT_FENCE_LIFT and FENCE_TAKES_EFFECT (R38, R97, R99): the request bit is written; the fence follows the request at once where no
image runs in the cluster and the unit is quiet, else at its boundary, and a unit fenced holds no charge. MARGIN_WRITE (R90): a code below the
factory floor sets the floor and the cluster page records the event, unless the unit is under test, when every code is accepted; no other
register changes but by the report. -/
def Obligations.FencesAndMargins : Prop :=
  (∀ (q : Requester) (c slot : Nat) (s : State), c < 16384 → slot < 68 → mayWrite q (.unit c slot) 0x804 = true → pageOff (.unit c slot) s = false →
    Answers (.unitFence q c slot) s (fun t => rb (.unit c slot) 0x804 0 t = true ∧ sameMem s t ∧
      (cluIdle c s = true → slotQuiet c slot s = true → (unitAt c slot t).fenced = true) ∧
      (cluIdle c s = false → (unitAt c slot t) = unitAt c slot s)) ∧
    Answers (.unitFenceLift q c slot) s (fun t => rb (.unit c slot) 0x804 0 t = false ∧ sameMem s t ∧
      (cluIdle c s = true → slotQuiet c slot s = true → (unitAt c slot t).fenced = false) ∧
      (cluIdle c s = false → (unitAt c slot t) = unitAt c slot s)) ∧
    (fenceMay c slot s = true → Answers (.fenceTakesEffect c slot) s (fun t =>
      (unitAt c slot t).fenced = rb (.unit c slot) 0x804 0 s ∧
      ((unitAt c slot s).fenced = false → rb (.unit c slot) 0x804 0 s = true → (unitAt c slot t).holding = 0) ∧ sameMem s t))) ∧
  (∀ (q : Requester) (c slot code : Nat) (s : State), c < 16384 → slot < 68 → code < 8 → mayWrite q (.unit c slot) 0x818 = true →
    pageOff (.unit c slot) s = false →
    let floor := rf (.unit c slot) 0x818 6 4 s
    let limits := decide (code < floor) && !(unitAt c slot s).underTest
    Answers (.marginWrite q c slot code) s (fun t =>
      rf (.unit c slot) 0x818 2 0 t = (if limits then floor else code) ∧ (limits = true → rb (.clu c) 0x010 errFIELD t = true) ∧
      (limits = false → t.out = s.out) ∧ sameRegs (oneReg (.unit c slot) 0x818) s t ∧ t.units = s.units ∧ sameMem s t))

-- Cluster tables and recipes (R146, R158, R217, R225, R362, R363) ---------------------------------------------------------------------

/-- Writes of the three tables of entries behind an index (R217, R362): with no image admitted and the page unlocked, the staged LO and the HI written become
the addressed entry without its reserved bits, of which a non-zero write is recorded (R22), every other entry stays, and the index advances. CURVE_DATA_ACCESS and ROUTING_TABLE_ACCESS (R146, R363): a write of a
curve not in use stores the addressed segment, a read answers it, and SEG advances; a write of a bank not in use for injection stores four
routing entries without their reserved bits, a read answers four. -/
def Obligations.PrecisionTables : Prop :=
  (∀ (q : Requester) (c : Nat) (hi : Word) (s : State), c < 16384 → q ≠ .mgmt → pageOff (.clu c) s = false → locked (.clu c) s = false →
    admitted c s = false →
    let wrote (tab : EntTable) (t : State) : Prop :=
      let v := (rdQ q (.clu c) (tab.idxOff + 4) s).toNat + 2 ^ 32 * hi.toNat
      entGet tab (cluAt c t) (entIdx tab q c s) = Nat.land v tab.mask ∧ (Nat.land v tab.mask ≠ v → rb (.clu c) 0x010 errRESWR t = true) ∧
      (∀ j, j ≠ entIdx tab q c s → entGet tab (cluAt c t) j = entGet tab (cluAt c s) j) ∧
      entIdx tab q c t = (entIdx tab q c s + 1) % 2 ^ (tab.hi + 1) ∧ (∀ d, d ≠ c → cluAt d t = cluAt d s) ∧ sameMem s t
    Answers (.uatEntryWrite q c hi) s (wrote .uat) ∧ Answers (.redEntryWrite q c hi) s (wrote .red) ∧ Answers (.rteEntryWrite q c hi) s (wrote .rte)) ∧
  (∀ (q : Requester) (c : Nat) (v : Word) (s : State), c < 16384 → q ≠ .mgmt → pageOff (.clu c) s = false →
    let k := curveKey q c s
    let bank := (routeSel q c s).1
    let table := (routeSel q c s).2.1
    let i := (routeSel q c s).2.2
    (locked (.clu c) s = false → curveUsed c (k / 256) s = false → Answers (.curveDataAccess q c (some v)) s (fun t =>
      SMap.get 0 (cluAt c t).curves k = v ∧ (∀ j, j ≠ k → SMap.get 0 (cluAt c t).curves j = SMap.get 0 (cluAt c s).curves j) ∧
      getF (rdQ q (.clu c) 0x248 t) 7 0 = (getF (rdQ q (.clu c) 0x248 s) 7 0 + 1) % 256 ∧ sameMem s t)) ∧
    Answers (.curveDataAccess q c none) s (fun t =>
      t.out = s.out ++ [{ kind := .regValue, args := [reqNo q, stOK, (SMap.get 0 (cluAt c s).curves k).toNat], blks := [], bytes := [] }] ∧
      getF (rdQ q (.clu c) 0x248 t) 7 0 = (getF (rdQ q (.clu c) 0x248 s) 7 0 + 1) % 256 ∧ t.clus = s.clus ∧ sameMem s t) ∧
    (bank ≠ (cluAt c s).bank → Answers (.routingTableAccess q c (some v)) s (fun t =>
      (∀ j, j < 4 → SMap.get 0 (cluAt c t).routing (routeKey bank table (i + j)) =
        getF v (8 * j + 7) (8 * j + 7) * 128 + getF v (8 * j + 1) (8 * j)) ∧
      (∀ m, (∀ j, j < 4 → m ≠ routeKey bank table (i + j)) → SMap.get 0 (cluAt c t).routing m = SMap.get 0 (cluAt c s).routing m) ∧ sameMem s t)) ∧
    Answers (.routingTableAccess q c none) s (fun t => t.clus = s.clus ∧ sameMem s t ∧
      t.out = s.out ++ [{ kind := .regValue, args := [reqNo q, stOK, (routeRead q c s).1.toNat], blks := [], bytes := [] }] ∧
      getF (rdQ q (.clu c) 0x30C t) 7 0 = (i + 4) % (if table = 0 then 64 else 256)))

/-- RECIPE_SELECT_WRITE (R157, R158): each of the sixteen selects takes the code written unless the rule refuses it, when it stays; a write
that meets a refusal is recorded. PRECISION_EPOCH_REPORT (R152): the cluster's counts leave in one COUNTS message and are cleared. -/
def Obligations.RecipesAndCounts : Prop :=
  (∀ (q : Requester) (n : Nat) (v : Word) (s : State), n < 16 → q ≠ .mgmt → Answers (.recipeSelectWrite q n v) s (fun t =>
    (∀ i, i < 16 → rf pgAdm (0x400 + 4 * n) (2 * i + 1) (2 * i) t =
      (if recipeRefusal (16 * n + i) (getF v (2 * i + 1) (2 * i)) s = 0 then getF v (2 * i + 1) (2 * i)
       else rf pgAdm (0x400 + 4 * n) (2 * i + 1) (2 * i) s)) ∧
    ((∃ i, i < 16 ∧ getF v (2 * i + 1) (2 * i) ≠ rf pgAdm (0x400 + 4 * n) (2 * i + 1) (2 * i) s ∧
      recipeRefusal (16 * n + i) (getF v (2 * i + 1) (2 * i)) s ≠ 0) → rb pgAdm 0x010 errFIELD t = true) ∧ sameMem s t)) ∧
  (∀ (c : Nat) (s : State), Answers (.precisionEpochReport c) s (fun t =>
    (cluAt c t).counts = [] ∧ (∀ d, d ≠ c → cluAt d t = cluAt d s) ∧ t.regs = s.regs ∧ t.mem = s.mem ∧
    ((cluAt c s).counts ≠ [] → t.out = s.out ++ [{
      kind := .guyline,
      args := 0xC :: c :: (cluAt c s).counts.flatMap (fun e => [e.1 / 4, e.1 % 4, e.2]), blks := [], bytes := [] }])))

-- The trim engine (R176–R210) ---------------------------------------------------------------------------------------------------

/-- CAL_CHUNK given to a unit that may take it (R176–R180): a chunk that does not end a take joins the take; one that ends the first take of a
pair leaves it complete; only event counters change among the registers. BASELINE_CLUSTER_VISIT (R182): the engine of a powered region moves
to its next cluster, and after the last it is done. COEFF_WRITEBACK (R183): at most once an hour a unit's coefficients reach the Logbook, with
the time. -/
def Obligations.Calibration : Prop :=
  (∀ (c slot : Nat) (task : CalTask) (vals : List Int) (s : State), c < 16384 → rb (pgTrm (regionOf c)) 0x100 0 s = true →
    (rgnAt (regionOf c) s).fenced = false → (rgnAt (regionOf c) s).off = false → calBarred c slot task s = false → calTurn c slot task s = true →
    calOpen c slot s = true →
    let k := SMap.get CalSet.empty (unitAt c slot s).cal (taskSet task)
    (k.chunks.length + 1 < taskChunks task → Answers (.calChunk c slot task vals) s (fun t =>
      (SMap.get CalSet.empty (unitAt c slot t).cal (taskSet task)).chunks = k.chunks ++ [vals] ∧
      (SMap.get CalSet.empty (unitAt c slot t).cal (taskSet task)).takes = k.takes ∧ sameRegs noReg s t ∧ sameMem s t)) ∧
    (k.chunks.length + 1 = taskChunks task → k.takes = [] → Answers (.calChunk c slot task vals) s (fun t =>
      (SMap.get CalSet.empty (unitAt c slot t).cal (taskSet task)).chunks = [] ∧
      (SMap.get CalSet.empty (unitAt c slot t).cal (taskSet task)).takes = k.chunks ++ [vals] ∧ sameRegs noReg s t ∧ sameMem s t))) ∧
  ((∀ (r : Nat) (cals : List BaseCal) (checks : List CheckErr) (s : State), r < 64 → (rgnAt r s).fenced = false → (rgnAt r s).off = false →
    rb (pgTrm r) 0x104 1 s = false → Answers (.baselineClusterVisit r cals checks) s (fun t =>
      (rgnAt r t).visit = (rgnAt r s).visit + 1 ∧ rf (pgTrm r) 0x104 15 8 t = (rgnAt r s).visit % 256 ∧
      rb (pgTrm r) 0x104 1 t = decide (256 ≤ (rgnAt r s).visit + 1) ∧ sameMem s t)) ∧
  (∀ (c slot : Nat) (s : State), SMap.get 0 s.logTime (ukey c slot) = 0 ∨ SMap.get 0 s.logTime (ukey c slot) + hour ≤ now s + 1 →
    Answers (.coeffWriteback c slot) s (fun t =>
      SMap.get [] t.logCoef (ukey c slot) = coefWords c slot s ∧ SMap.get 0 t.logTime (ukey c slot) = now s + 1 ∧
      (∀ k, k ≠ ukey c slot → SMap.get [] t.logCoef k = SMap.get [] s.logCoef k) ∧ rf pgLog 0x108 31 0 t = satAdd 32 (rf pgLog 0x108 31 0 s) 1 ∧ sameRegs noReg s t ∧
      t.units = s.units ∧ t.mem = s.mem)))

/-- REFRESH_START and REFRESH_OVERDUE (R184, R185, R187, R189): a due plane that nothing holds is queued for its refresh; for a held one an IDLE
spare stands in while another stays, unless an overdue plane of the cluster waits for one; a plane not refreshed within DAYS for want of a slot or a
spare is marked and sends TRM_REFRESH of its region. The four commands of TRM_CMD (R209): the command named waits with the engine, once, with the
calibrations that it asks for, and those that waited before still do; no register and no byte changes. -/
def Obligations.RefreshAndTrim : Prop :=
  (∀ (c slot p : Nat) (s : State), c < 16384 → slot < 68 → p < 2 → (rgnAt (regionOf c) s).fenced = false →
    (rgnAt (regionOf c) s).off = false → ((unitAt c slot s).plane p).st = .resident →
    let q : PgmReq := { unit := ukey c slot, plane := p, kind := .refresh }
    ((unitAt c slot s).fenced = false → underOther c slot s = false → refreshDue c slot p s = true → planeHeld c slot p s = false → Answers (.refreshStart c slot p) s (fun t =>
      (q ∈ (rgnAt (regionOf c) t).queue ∨ q ∈ (rgnAt (regionOf c) t).active) ∧ refreshAsked c slot p t = false ∧ t.regs = s.regs ∧
      t.units = s.units ∧ t.mem = s.mem)) ∧
    (∀ l n m ms, (unitAt c slot s).fenced = false → underOther c slot s = false → refreshDue c slot p s = true → planeHeld c slot p s = true →
      slot < 64 → l < 64 → (rgnAt (regionOf c) s).overdue.contains (ukey c slot, p) = true ∨ overdueWaits c slot p s = false →
      (unitAt c slot s).serves = some l → idleSpares c s = n :: m :: ms →
      (∀ i, i < 4 → i ≠ n → rf (.clu c) (0x180 + 4 * i) 10 8 s = 0 ∨ rf (.clu c) (0x180 + 4 * i) 5 0 s ≠ l) →
      Answers (.refreshStart c slot p) s (fun t => spareSt c n t = 1 ∧ rf (.clu c) (0x180 + 4 * n) 10 8 t = 2 ∧
        rf (.clu c) (0x180 + 4 * n) 5 0 t = l ∧ n ∈ (cluAt c t).refr ∧ sameRegs (oneReg (.clu c) (0x180 + 4 * n)) s t ∧ sameMem s t)) ∧
    (rb (pgTrm (regionOf c)) 0x100 3 s = true → daysPassed c slot p s = true → refreshWaits c slot p s = true → (rgnAt (regionOf c) s).overdue.contains (ukey c slot, p) = false → Answers (.refreshOverdue c slot p) s (fun t =>
      (ukey c slot, p) ∈ (rgnAt (regionOf c) t).overdue ∧ t.regs = s.regs ∧ t.mem = s.mem ∧
      t.out = s.out ++ [{ kind := .guyline, args := [9, regionOf c, 6], blks := [], bytes := [] }]))) ∧
  (∀ (q : Requester) (r cluster slot plane : Nat) (s : State), r < 64 → q ≠ .mgmt → pageOff (pgTrm r) s = false → cluster < 256 → slot < 68 →
    plane < 2 →
    let waits (op cl sl pl : Nat) (left : List (Nat × Nat)) (t : State) : Prop :=
      let cmds := (rgnAt r s).cmds
      let there := cmds.any (fun k => decide (k.op = op) && (decide (op = 2) || decide (k.cluster = cl ∧ k.slot = sl ∧ k.plane = pl)))
      (rgnAt r t).cmds = (if there then cmds else cmds ++ [{ op := op, cluster := cl, slot := sl, plane := pl, left := left, begun := false }]) ∧
      t.regs = s.regs ∧ t.units = s.units ∧ t.mem = s.mem
    Answers (.trmCmdColRef q r cluster slot) s (waits 1 cluster slot 0 [(slot, 0), (slot, 1), (slot, 2)]) ∧
    Answers (.trmCmdColRefRegion q r) s (waits 2 0 0 0 clusterSets) ∧
    Answers (.trmCmdRes q r cluster slot plane) s (waits 3 cluster slot plane [(slot, 3 + plane)]) ∧
    Answers (.trmCmdRefresh q r cluster slot plane) s (waits 4 cluster slot plane []))

-- Reduction and lane store (R218–R235) -----------------------------------------------------------------------------------------------

/-- REDUCTION_CONTRIBUTION to an armed entry that takes more (R220): it joins the entry. REDUCTION_COMPLETE (R220): an entry that holds all its
contributions is disarmed, and its result leaves to the entry it names. LANE_WORD_REFILL (R234): a free slot of the lane store takes the
stream's next word as stack memory holds it. -/
def Obligations.ReductionAndLanes : Prop :=
  (∀ (c e : Nat) (remote : Bool) (blks : List Blk) (a : Armed) (s : State), c < 16384 → e < 32 → (cluAt c s).armed = [a] → a.entry = e →
    takesMore (SMap.get 0 (cluAt c s).red e) a remote = true → Answers (.reductionContribution c e remote blks) s (fun t =>
      (cluAt c t).armed = [{ a with units := a.units + b2n (!remote), rems := a.rems + b2n remote, got := a.got ++ [blks.map takeBlk],
                                    srcs := a.srcs ++ [anon] }] ∧ t.units = s.units ∧ sameRegs noReg s t ∧ sameMem s t)) ∧
  (∀ (c : Nat) (a : Armed) (ecc : List (Nat × Bool)) (s : State), (cluAt c s).armed = [a] →
    entryFull (SMap.get 0 (cluAt c s).red a.entry) a = true → (cluAt c s).waitArm = [] →
    (cluAt c s).tokWait.find? (fun t => t.1 = a.step) = none → rdDest (SMap.get 0 (cluAt c s).red a.entry) = 1 →
    Answers (.reductionComplete c a.entry ecc) s (fun t =>
      (cluAt c t).armed = [] ∧ t.units = s.units ∧ sameMem s t ∧
      t.out.getLast? = some {
        kind := .contribution, args := [c, rdDaddr (SMap.get 0 (cluAt c s).red a.entry) % 32, 0],
        blks := (reduceResult c (SMap.get 0 (cluAt c s).red a.entry) a s).1, bytes := [] })) ∧
  (∀ (c : Nat) (s : State), (cluAt c s).lbase ≤ (cluAt c s).lane.w → (cluAt c s).loaded < (laneStream c s).2 →
    (cluAt c s).loaded - max (cluAt c s).lbase (laneLow c (cluAt c s).lane.w s) < laneSlots → Answers (.laneWordRefill c) s (fun t =>
      (cluAt c t).loaded = (cluAt c s).loaded + 1 ∧ SMap.get 0 (cluAt c t).store (cluAt c s).loaded = laneMem c (cluAt c s).loaded s ∧
      (cluAt c t).laneWait = false ∧ (∀ d, d ≠ c → cluAt d t = cluAt d s) ∧ t.regs = s.regs ∧ t.mem = s.mem))

/-- A stray contribution (R222): one addressed to an entry that is not armed, or beyond the expected count, is discarded, counted in
CLU_REDSTAT.STRAY and recorded in PG_ERR. -/
def Obligations.StrayContributions : Prop :=
  ∀ (c e : Nat) (remote : Bool) (blks : List Blk) (s : State), c < 16384 → e < 32 →
    (∀ a, (cluAt c s).armed.find? (fun a => a.entry = e) = some a → takesMore (SMap.get 0 (cluAt c s).red e) a remote = false) →
    Answers (.reductionContribution c e remote blks) s (fun t =>
      t.clus = s.clus ∧ t.units = s.units ∧ rf (.clu c) 0x278 23 16 t = satAdd 8 (rf (.clu c) 0x278 23 16 s) 1 ∧
      rb (.clu c) 0x010 errBLOCK t = true ∧ sameRegs (oneReg (.clu c) 0x278) s t ∧ sameMem s t)

-- The Stove (R245–R253) -------------------------------------------------------------------------------------------------------------

/-- The Stove operations that read or store memory, and NOP (R245, R246, R251): each starts when it is next in issue order and its pipe is free.
GATHER gives the rows of the table by index, zero beyond it; KVAPPEND stores the blocks of key and value at the position's place in the stream's
cache (R251, R390), and nothing else; NOP only ends. -/
def Obligations.StoveMemoryOps : Prop :=
  ∀ (k : StvCtx) (s : State), k.r < 64 →
    (∀ j, stoveNext k.r s = some j → j.code = 0 → j.slot = k.slot → (rgnAt k.r s).fenced = false → (rgnAt k.r s).off = false →
      Answers (.stvNop k) s (fun t => (rgnAt k.r t).jobs = (rgnAt k.r s).jobs.erase j ∧ (rgnAt k.r t).asks = (rgnAt k.r s).asks ∧
        sameRegs noReg s t ∧ sameMem s t)) ∧
    (∀ (base rows rowLen : Nat) (idx : List (Nat × Nat)), stoveMay k 1 false s = true → Answers (.stvGather k base rows rowLen true idx) s (fun t =>
      StoveRuns k 1 false s t (fun j => j.nums = idx.flatMap (fun e =>
        if e.2 < rows then (List.range rowLen).map (fun n => leNat (stackBytes k.errs (base + e.2 * (2 * rowLen) + 2 * n) 2 s)) else List.replicate rowLen 0)) ∧
      (∀ e ∈ idx, rows ≤ e.2 → ∃ o ∈ t.out, o.kind = .guyline ∧ o.args.head? = some 0xD) ∧ sameMem s t)) ∧
    (∀ (pos stride : Nat) (sr : Bool) (key value : List Word), stoveMay k 2 false s = true →
      let at_ := kvPlace k pos stride s
      let bs := kvBytes k sr key value s
      Answers (.stvKvappend k pos stride sr key value) s (fun t =>
        StoveRuns k 2 false s t (fun j => j.blks.length = (key.length + 31) / 32 + (value.length + 31) / 32) ∧
        (∀ i b, bs[i]? = some b → at_ + i < mapTop → memByte (at_ + i) t = b) ∧
        (∀ a, a < at_ ∨ at_ + bs.length ≤ a → memByte a t = memByte a s)))

/-- The Stove operations on scores and logits (R245, R249, R250): SCORE gives one value per cached position; SOFTMAX one weight per score, 0
beyond a causal limit; TOPK the n largest logits by falling value, ties to the lower index; SAMPLE the token of R249 under its draw. The Stove
operations on vectors (R245): WSUM gives a block for each 32 elements of the longest value, NORM and ROPE as many elements or blocks as their
input, RESADD a block for each 32 elements, ELTWISE an element for each pair. -/
def Obligations.StoveArithmetic : Prop :=
  (∀ (k : StvCtx) (s : State), k.r < 64 →
    (∀ (scale : Nat) (query : List Blk) (keys : List (List Blk)), stoveMay k 3 true s = true → Answers (.stvScore k scale query keys) s (fun t =>
      StoveRuns k 3 true s t (fun j => j.nums.length = keys.length) ∧ sameMem s t)) ∧
    (∀ (scores : List Word) (causal : Option Nat), stoveMay k 4 false s = true → Answers (.stvSoftmax k scores causal) s (fun t =>
      StoveRuns k 4 false s t (fun j => j.nums.length = scores.length ∧
        ∀ c i, causal = some c → c ≤ i → i < scores.length → nth 1 j.nums i = 0) ∧ sameMem s t)) ∧
    (∀ (n : Nat) (logits : List Word), n ≤ logits.length → stoveMay k 8 false s = true → Answers (.stvTopk k n logits) s (fun t =>
      StoveRuns k 8 false s t (fun j =>
        let x (i : Nat) : Fp := fpOf (nth 0 logits i)
        let sel := j.nums.take n
        j.nums.length = 2 * n ∧ sel.Nodup ∧ (∀ i ∈ sel, i < logits.length) ∧ sel.Pairwise (fun a b => fpLe (x b) (x a) = true) ∧
        (∀ i ∈ sel, ∀ m, m < logits.length → m ∉ sel → fpLe (x m) (x i) = true ∧ (fpLe (x i) (x m) = true → i < m))) ∧ sameMem s t)) ∧
    (∀ (invtemp topk topp : Nat) (logits : List Word), stoveMay k 9 false s = true → Answers (.stvSample k invtemp topk topp logits) s (fun t =>
      StoveRuns k 9 false s t (fun j => ∃ m, j.nums = [m] ∧ (logits ≠ [] → m < logits.length) ∧
        m = sampleToken invtemp topk topp (logits.map fpOf) (genDraw (genKey 7 k.r (ownInputs k s).sid) (genCtr (stoveStep k s) 0))) ∧ sameMem s t))) ∧
  (∀ (k : StvCtx) (s : State), k.r < 64 →
    (∀ (desc : Nat) (weights : List Word) (values : List (List Blk)), stoveMay k 5 false s = true → Answers (.stvWsum k desc weights values) s (fun t =>
      StoveRuns k 5 false s t (fun j => j.blks.length = values.foldl (fun a l => max a l.length) 0) ∧ sameMem s t)) ∧
    (∀ (rms a8 : Bool) (eps : Word) (xs gain bias : List Word), stoveMay k 6 false s = true → Answers (.stvNorm k rms eps a8 xs gain bias) s (fun t =>
      StoveRuns k 6 false s t (fun j => j.nums.length = (if a8 then 0 else xs.length) ∧
        j.blks.length = (if a8 then (xs.length + 31) / 32 else 0)) ∧ sameMem s t)) ∧
    (∀ (a8 : Bool) (xs : List Word) (angles : List (Word × Word)), stoveMay k 7 false s = true → Answers (.stvRope k a8 xs angles) s (fun t =>
      StoveRuns k 7 false s t (fun j => j.nums.length = (if a8 then 0 else xs.length) ∧
        j.blks.length = (if a8 then (xs.length + 31) / 32 else 0)) ∧ sameMem s t)) ∧
    (∀ (sr a8 : Bool) (xs ys : List Word), stoveMay k 0xA false s = true → Answers (.stvResadd k sr a8 xs ys) s (fun t =>
      StoveRuns k 0xA false s t (fun j => j.blks.length = (xs.length + 31) / 32 ∧ ∀ b ∈ j.blks,
        b.pt = (ownInputs k s).pt ∧ b.sid = (ownInputs k s).sid ∧ b.bslot = (ownInputs k s).bslot) ∧
      sameMem s t)) ∧
    (∀ (mul a8 : Bool) (xs ys : List Word), stoveMay k 0xB false s = true → Answers (.stvEltwise k mul a8 xs ys) s (fun t =>
      StoveRuns k 0xB false s t (fun j => j.nums.length = min xs.length ys.length) ∧ sameMem s t)))

/-- STOVE_OP_COMPLETE (R253, R272): the running operation of a pipe whose charge is granted leaves with its outputs, the pipe is free, its
charge is given back, and where its slot of the word says so a token of its image leaves for K6 of every cluster that received them. STACK_TRANSFER
and STACK_TRANSFER_COMPLETE (R273): a transfer named starts; a running one ends and sends the token of its entry, of its image's pitch. -/
def Obligations.StoveCompletes : Prop :=
  (∀ (r : Nat) (int8 : Bool) (dests : List Nat) (j : StvJob) (s : State), r < 64 →
    (rgnAt r s).jobs.find? (fun j => j.run && j.int8 == int8) = some j →
    SMap.get 0 (rgnAt r s).stvHold (pipeNo int8) ≠ 0 → Answers (.stoveOpComplete r int8 dests) s (fun t =>
      (rgnAt r t).jobs = (rgnAt r s).jobs.erase j ∧ SMap.get 0 (rgnAt r t).stvHold (pipeNo int8) = 0 ∧
      rb (pgStv r) 0x100 (if int8 then 0 else 1) t = false ∧
      (∃ o ∈ t.out, o.kind = .portage ∧ o.blks = j.blks ∧
        o.args = [stoveCluster r, r, j.slot, j.step, j.desc, j.cause, b2n j.sat, b2n j.ufl] ++ j.nums) ∧
      (j.tok = true → ∀ d ∈ dests, ∃ o ∈ t.out, ∃ id, o.kind = .control ∧
        o.args = [5, stoveCluster r, d, id, d, 6, 0, (slotAt j.slot s).pitch]) ∧ sameMem s t)) ∧
  (∀ (r slot idx : Nat) (x : Xfer) (s : State), (rgnAt r s).xfers = [x] → x.slot = slot → x.idx = idx → x.run = false →
    Answers (.stackTransfer r slot idx) s (fun t => (rgnAt r t).xfers = [{ x with run := true }] ∧ t.regs = s.regs ∧ t.mem = s.mem)) ∧
  (∀ (r k : Nat) (errs : List SectErr) (ecc : List (Nat × Bool)) (x : Xfer) (s : State), (rgnAt r s).xfers = [x] → x.run = true →
    let e := xferEnt r x.idx s
    e.tok = some k → Answers (.stackTransferComplete r errs ecc) s (fun t => (rgnAt r t).xfers = [] ∧
      ∃ o id, t.out.getLast? = some o ∧ o.kind = .control ∧ o.args = [5, stoveCluster r, e.clu, id, e.clu, k, 0, (slotAt x.slot s).pitch]))

-- Sequencers and cluster steps (R37, R271–R289) -----------------------------------------------------------------------------------------

/-- The sequencers (R262, R271, R275–R277, R283): a die word reached moves the die sequencer to the next word of its stream; a gate whose instant
has come leaves; a region word reached issues its Stove operations and moves that sequencer on. -/
def Obligations.SequencersAdvance : Prop :=
  (∀ (slot : Nat) (s : State), dieMay slot s = true → Answers (.dieWordReach slot) s (fun t =>
    (slotAt slot t).die = seqNext (slotAt slot s).dieWords.2 (fld (dieWord (slotAt slot s) (slotAt slot s).die.w s) 31 0) (slotAt slot s).die ∧
    (slotAt slot t).peak = max (slotAt slot s).peak ((slotAt slot s).die.step + 1))) ∧
  (∀ (slot k at_ : Nat) (samples : List (Nat × Nat)) (rest : List (Nat × Option Nat × List (Nat × Nat))) (s : State),
    (slotAt slot s).gates = (k, some at_, samples) :: rest → at_ ≤ now s → Answers (.gateInstant slot) s (fun t =>
      (slotAt slot t).gates = rest ∧ t.regs = s.regs ∧ t.mem = s.mem ∧
      t.out = s.out ++ [{ kind := .guyline, args := 3 :: 2 :: (slotAt slot s).pitch :: k :: samples.flatMap (fun e => [e.1, e.2]), blks := [],
                          bytes := [] }])) ∧
  (∀ (slot r : Nat) (s : State), regionMay slot r s = true → Answers (.regionWordReach slot r) s (fun t =>
    let x := slotAt slot s
    let p := SMap.get SeqPos.start (rgnAt r s).seqs slot
    SMap.get SeqPos.start (rgnAt r t).seqs slot = seqNext (SMap.get (0, 0) x.rgns r).2 (fld (rgnWord x r p.w s) 31 0) p ∧
    (rgnAt r t).jobs = (rgnAt r s).jobs ++ stoveJobs r slot p.step (rgnWord x r p.w s) s ∧ t.regs = s.regs ∧ t.clus = s.clus ∧ t.mem = s.mem))

/-- Cluster steps (R37, R284–R287): a cluster whose conditions hold begins its next step and takes one token of each counter its word names; a
step whose actions are done completes, unless a replayable failure of it holds it (R499, R501); a good TOKEN beat adds one to its counter, up to 255,
and is answered, or is refused by a fenced cluster and for a counter that no cluster has (R336); a lost one adds nothing and is counted. -/
def Obligations.ClusterSteps : Prop :=
  (∀ (c n : Nat) (ecc : List (Nat × Bool)) (s : State), slotOfClu c s = some n → mayBegin n c s = true → noLane c s = false →
    (cluAt c s).fenceReq = false → Answers (.clusterStepBegin c ecc) s (fun t =>
      (cluAt c t).next = (cluAt c s).next + 1 ∧ (cluAt c t).busy = true ∧ (cluAt c t).word = nextLane (cluAt c s) ∧ sameMem s t ∧
      ∀ i, i < 7 → SMap.get 0 (cluAt c t).tokens i =
        (if bit (nextLane (cluAt c s)) (544 + i) then SMap.get 0 (cluAt c s).tokens i - 1 else SMap.get 0 (cluAt c s).tokens i))) ∧
  (∀ (c : Nat) (s : State), (cluAt c s).busy = true → (cluAt c s).hold = false → actionsOpen (cluAt c s) = false →
    (cluAt c s).replayTo = none →
    let mine := (cluAt c s).fails.filter (fun e => decide (e.1 ≤ (cluAt c s).next - 1))
    (mine.any (fun e => replayable e.2.1) = false → Answers (.clusterStepComplete c) s (fun t =>
      (cluAt c t).busy = false ∧ (cluAt c t).completed = (cluAt c s).next)) ∧
    (mine.any (fun e => replayable e.2.1) = true → Answers (.clusterStepComplete c) s (fun t =>
      (cluAt c t).busy = true ∧ (cluAt c t).hold = true ∧ (cluAt c t).next = (cluAt c s).next ∧ t.regs = s.regs ∧ t.mem = s.mem))) ∧
  (∀ (c : Nat) (b : CBeat) (s : State), c < 16384 → b.tagOk = true ∨ b.dataOk = true → b.tag.dcl = c → foreign c b.tag.pitch s = false →
    let k := b.tag.sub
    let answers (kind status : Nat) (t : State) : Prop :=
      ∃ o, t.out.getLast? = some o ∧ o.kind = .control ∧ o.args = [kind, c, b.tag.scl, b.id, c, 1, status, b.tag.pitch]
    (cluFenced c s = true → Answers (.tokenArrival c b) s (fun t => answers 7 0 t ∧ t.clus = s.clus ∧ sameRegs noReg s t ∧ sameMem s t)) ∧
    (cluFenced c s = false → 6 < k → Answers (.tokenArrival c b) s (fun t => answers 7 3 t ∧ t.clus = s.clus ∧ sameRegs noReg s t ∧ sameMem s t)) ∧
    (cluFenced c s = false → k ≤ 6 → SMap.get 0 (cluAt c s).tokens k ≠ 255 → Answers (.tokenArrival c b) s (fun t => answers 6 0 t ∧
      SMap.get 0 (cluAt c t).tokens k = SMap.get 0 (cluAt c s).tokens k + 1 ∧
      (∀ i, i ≠ k → SMap.get 0 (cluAt c t).tokens i = SMap.get 0 (cluAt c s).tokens i) ∧ sameRegs noReg s t ∧ sameMem s t)) ∧
    (cluFenced c s = false → k ≤ 6 → SMap.get 0 (cluAt c s).tokens k = 255 → Answers (.tokenArrival c b) s (fun t =>
      t.clus = s.clus ∧ rb (.clu c) 0x2B0 31 t = true ∧ sameRegs (oneReg (.clu c) 0x2B0) s t ∧ sameMem s t))) ∧
  (∀ (c : Nat) (b : CBeat) (s : State), c < 16384 → (b.tagOk = false ∧ b.dataOk = false) ∨ b.tag.dcl ≠ c → Answers (.tokenArrival c b) s (fun t =>
    t.clus = s.clus ∧ rf (.clu c) 0x31C 31 24 t = satAdd 8 (rf (.clu c) 0x31C 31 24 s) 1 ∧ sameRegs (oneReg (.clu c) 0x31C) s t ∧ sameMem s t))

/-- Floors, recalls and the stall watchdog (R285, R288, R289, R503): a region's sample leaves and, at the die, takes the place of what it held of that
region; a floor reaches its cluster; a gate message is held, or its samples reach a cluster that has begun its step (R159); a RECALL takes a waiting
cluster back to the step named; a message that the die issued behind another one waits for its turn (R42, R359); an image whose floor
stands for TIME is marked STALLED and ADM_STALL is raised. That what is published never exceeds the floor itself is the model's reading of R285
(log entry 102). -/
def Obligations.FloorsAndStalls : Prop :=
  (∀ (r n : Nat) (s : State), n < 16 → (slotAt n s).st.runs = true → (slotRegions (slotAt n s)).contains r = true →
    Answers (.floorSample r) s (fun t => ∃ l, t = say .guyline (0xA :: r :: l) s ∧ [n, rgnFloor (slotAt n s) r s] <:+: l)) ∧
  (∀ (r n f : Nat) (s : State), Answers (.sampleMessage r [(n, f)]) s (fun t =>
    SMap.get 0 (rgnAt r t).samples n = f ∧
    (slotAt n t).floor = (if (slotAt n s).st.runs then max (slotAt n s).floor (dieFloor n t) else (slotAt n s).floor) ∧ t.regs = s.regs ∧ t.mem = s.mem)) ∧
  (∀ (c slot floor : Nat) (s : State), slotOfClu c s = some slot → downTurn c [4, floor] s ≠ none → Answers (.floorMessage c slot floor) s (fun t =>
    (cluAt c t).floor = max (cluAt c s).floor floor ∧ (∀ d, d ≠ c → cluAt d t = cluAt d s) ∧ t.regs = s.regs ∧ t.mem = s.mem)) ∧
  (∀ (c step : Nat) (samples : List (Nat × Nat)) (s : State), (cluAt c s).next ≤ step → (cluAt c s).gates.length < 64 → downTurn c [3, step] s ≠ none →
    Answers (.gateMessage c step samples) s (fun t =>
      { step := step, samples := samples } ∈ (cluAt c t).gates ∧ (∀ g ∈ (cluAt c s).gates, g.step ≠ step → g ∈ (cluAt c t).gates) ∧
      t.regs = s.regs ∧ t.mem = s.mem)) ∧
  (∀ (c step : Nat) (samples : List (Nat × Nat)) (s : State), step < (cluAt c s).next → downTurn c [3, step] s ≠ none →
    Answers (.gateMessage c step samples) s (fun t =>
      (cluAt c t).recipes = samples.foldl (fun m e => SMap.set 0 m e.1 e.2) (cluAt c s).recipes ∧ (cluAt c t).gates = (cluAt c s).gates ∧
      (∀ d, d ≠ c → cluAt d t = cluAt d s) ∧ t.regs = s.regs ∧ t.mem = s.mem)) ∧
  (∀ (c a b : Nat) (samples : List (Nat × Nat)) (s : State),
    (downTurn c [4, b] s = none → Answers (.floorMessage c a b) s (fun t => t = s)) ∧
    (downTurn c [3, a] s = none → Answers (.gateMessage c a samples) s (fun t => t = s)) ∧
    (downTurn c [5, a, b % 16] s = none → Answers (.recallMessage c a b) s (fun t => t = s))) ∧
  (∀ (c step gen : Nat) (s : State), (cluAt c s).busy = false → (cluAt c s).hold = false → step < (cluAt c s).next →
    downTurn c [5, step, gen % 16] s ≠ none →
    Answers (.recallMessage c step gen) s (fun t =>
      (cluAt c t).next = step ∧ (cluAt c t).replayTo = none ∧ (cluAt c t).replayGen = gen % 16 ∧ (cluAt c t).busy = false ∧ sameMem s t)) ∧
  (∀ (slot : Nat) (s : State), slot < 16 → (slotAt slot s).st = .running → (slotAt slot s).stalled = false → rf pgAdm 0x134 15 0 s ≠ 0 →
    (slotAt slot s).pubTime + usec * rf pgAdm 0x134 15 0 s ≤ now s → Answers (.admStallTimeout slot) s (fun t =>
      (slotAt slot t).stalled = true ∧ rb pgAdm (0x140 + 4 * slot) 28 t = true ∧ (slotAt slot t).st = .running ∧ sameMem s t ∧
      rf (srcPage 68) (srcOff 0x900 68) 15 0 t = satAdd 16 (rf (srcPage 68) (srcOff 0x900 68) 15 0 s) 1))

-- Admission (R304–R318, R436) ---------------------------------------------------------------------------------------------------------------

/-- ADMIT and its end (R304, R305, R307, R308): the lowest EMPTY slot is CHECKING and BUSY is set; with no EMPTY slot the code is 0x08; when the
checks end, a refused image leaves the slot EMPTY with its code, an admitted one leaves it READY. -/
def Obligations.Admission : Prop :=
  (∀ (q : Requester) (n : Nat) (s : State), q ≠ .mgmt → checking s = false → firstBelow 16 (fun n => (slotAt n s).st = .empty) = some n →
    Answers (.admitImage q) s (fun t => (slotAt n t).st = .checking ∧ rb pgAdm 0x10C 31 t = true ∧ rf pgAdm 0x10C 27 24 t = n ∧
      (∃ j, t.admJob = some j ∧ j.slot = n ∧ j.addr = admImg s) ∧ sameRegs (oneReg pgAdm 0x10C) s t ∧ sameMem s t)) ∧
  (∀ (q : Requester) (s : State), q ≠ .mgmt → checking s = false → firstBelow 16 (fun n => (slotAt n s).st = .empty) = none →
    Answers (.admitImage q) s (fun t => rf pgAdm 0x10C 23 16 t = 0x08 ∧ t.slots = s.slots ∧ sameMem s t)) ∧
  (∀ (j : AdmJob) (s : State), s.admJob = some j → j.code ≠ 0 → Answers .admissionComplete s (fun t =>
    (slotAt j.slot t).st = .empty ∧ rb pgAdm 0x10C 31 t = false ∧ rf pgAdm 0x10C 23 16 t = j.code % 256 ∧ t.admJob = none ∧ t.clus = s.clus ∧
    sameMem s t)) ∧
  (∀ (j : AdmJob) (s : State), s.admJob = some j → j.code = 0 → j.slot < 16 → Answers .admissionComplete s (fun t =>
    (slotAt j.slot t).st = .ready ∧ (slotAt j.slot t).img = j.addr ∧ rb pgAdm 0x10C 31 t = false ∧ rf pgAdm 0x10C 23 16 t = 0 ∧ t.admJob = none ∧
    t.rcpOwner = some j.slot ∧ sameMem s t))

/-- START, RETIRE, ABORT, RELEASE, the end of a slot and the plane pointer (R307, R318, R436, R437), each in the states that permit it; an operation
that the slot's state does not permit (R308), and a START whose input and output areas are not in order (R578), is ignored and recorded. A slot that
ends raises ADM_END; one that is not stopped goes on; a pointer write equal to PTR changes nothing, and a refused one is recorded by its code. -/
def Obligations.SlotOperations : Prop :=
  ∀ (q : Requester) (n : Nat) (s : State), n < 16 → q ≠ .mgmt →
    let x := slotAt n s
    let ignored (t : State) : Prop := t.slots = s.slots ∧ t.clus = s.clus ∧ rb pgAdm 0x010 errOPIGN t = true ∧ sameRegs noReg s t ∧ sameMem s t
    let ended (t : State) : Prop := (slotAt n t).st = .ended ∧ (slotAt n t).batches = [] ∧ (slotAt n t).filling = [] ∧ (slotAt n t).gates = [] ∧
      (slotAt n t).links = [] ∧ (∀ c ∈ slotClusters x, (cluAt c t).busy = false ∧ (cluAt c t).armed = []) ∧
      rf (srcPage 69) (srcOff 0x900 69) 15 0 t = satAdd 16 (rf (srcPage 69) (srcOff 0x900 69) 15 0 s) 1
    (x.st = .ready → areasOk n s = true → Answers (.start q n) s (fun t =>
      (slotAt n t).st = .running ∧ (slotAt n t).floor = 0 ∧
      (∀ c ∈ slotClusters x, (cluAt c t).tokens = [] ∧ (cluAt c t).gates = [] ∧ (cluAt c t).floor = 0) ∧ sameMem s t)) ∧
    (x.st = .ready → areasOk n s = false → Answers (.start q n) s (fun t => ignored t ∧ rb pgStrm 0x010 errOPIGN t = true)) ∧
    (x.st ≠ .ready → Answers (.start q n) s ignored) ∧
    (x.st = .running → Answers (.retire q n) s (fun t => (slotAt n t).st = .draining ∧ t.clus = s.clus ∧ sameMem s t)) ∧
    (x.st ≠ .running → Answers (.retire q n) s ignored) ∧
    (x.st = .running ∨ x.st = .draining → Answers (.abort q n) s (fun t =>
      (slotAt n t).st = .aborting ∧ (slotAt n t).gates = [] ∧ (slotAt n t).links = [] ∧
      (∀ c ∈ slotClusters x, (cluAt c t).armed = [] ∧ (cluAt c t).waitArm = []) ∧ sameMem s t)) ∧
    (x.st = .ready → Answers (.abort q n) s ended) ∧
    (x.st = .checking → Answers (.abort q n) s (fun t => slotAt n t = Slot.vacant ∧ t.admJob = none ∧ rb pgAdm 0x10C 31 t = false ∧
      rf pgAdm 0x10C 23 16 t = 0x20 ∧ t.clus = s.clus ∧ sameMem s t)) ∧
    (x.st = .empty ∨ x.st = .aborting ∨ x.st = .ended → Answers (.abort q n) s ignored) ∧
    (x.st = .ended → Answers (.release q n) s (fun t =>
      slotAt n t = Slot.vacant ∧ (∀ c ∈ slotClusters x, rd (.clu c) 0x318 t = 0) ∧ t.rcpOwner ≠ some n ∧ t.clus = s.clus ∧ sameMem s t)) ∧
    (x.st ≠ .ended → Answers (.release q n) s ignored) ∧
    (x.stopping = true → allStopped x s = true → Answers (.slotStopped n) s ended) ∧
    (x.stopping = false ∨ allStopped x s = false → Answers (.slotStopped n) s (fun t => t = s)) ∧
    (∀ p, p < 2 → p ≠ x.ptr → ptrRefusal x p s = 0 → Answers (.planePointerWrite q n p) s (fun t =>
      (slotAt n t).ptr = p ∧ (slotAt n t).st = x.st ∧ rf pgAdm (0x200 + 4 * n) 0 0 t = p ∧ t.clus = s.clus ∧ t.units = s.units ∧ sameMem s t)) ∧
    (∀ p, p < 2 → p ≠ x.ptr → ptrRefusal x p s ≠ 0 → Answers (.planePointerWrite q n p) s (fun t =>
      t.slots = s.slots ∧ rf pgAdm (0x200 + 4 * n) 31 28 t = ptrRefusal x p s ∧ sameRegs (oneReg pgAdm (0x200 + 4 * n)) s t ∧ sameMem s t)) ∧
    (∀ p, p < 2 → p = x.ptr → Answers (.planePointerWrite q n p) s (fun t => t = s))

-- The Portage mesh (R328–R345) -------------------------------------------------------------------------------------------------------------

/-- Messages at a router (R328–R337, R344, R351): one for another cluster goes on by the table of its bank, waits while the link has no room, or is
refused, NOROUTE where the table gives no way and LINKDOWN where it waited for the link; one whose target is fenced, cannot hold it or lies beyond a
link that is down is refused; one accepted is acknowledged, its blocks reach the unit or the Pantry line named; a foreign one is
dropped and its beats are counted; of one that is misdelivered, or of a reserved kind or VC, the beats are discarded and counted. Answers at a source
(R269, R329, R336, R338): the ACK or the REFUSE of the last target resolves its message, and the token of a step that waited for it leaves; a
REFUSE is counted by its status and raises NET_REFUSE. That the message that crosses a down link within a cluster is refused LINKDOWN is the model's
reading (log entry 105). -/
def Obligations.PortageMessages : Prop :=
  (∀ (c : Nat) (m : PMsg) (s : State), c < 16384 →
    let answers (kind status : Nat) (target : Nat) (t : State) : Prop := ∃ o, t.out.getLast? = some o ∧ o.kind = .control ∧
      o.args = [kind, c, m.tag.scl, m.id, target, max 1 m.blks.length, status, m.tag.pitch]
    (m.tag.dcl ≠ c → m.tag.vc ≠ 1 ∨ 0xA < m.tag.kind →
      let e := routeEnt c m.tag.bank m.tag.dcl s
      let free := bit e 7 && !linkBad c (e % 4) s
      (free = false → ∀ room, Answers (.beatForward c m room) s (fun t =>
        answers 7 (if bit e 7 && (cluAt c s).held.any (fun h => sameMsg m h.2) then rsLINKDOWN else rsNOROUTE) m.tag.dcl t ∧
        (∀ h ∈ (cluAt c t).held, sameMsg m h.2 = false) ∧ sameRegs noReg s t ∧ t.mem = s.mem)) ∧
      (free = true → Answers (.beatForward c m true) s (fun t => (∃ o, t.out = s.out ++ [o] ∧ o.kind = .portage ∧ o.blks = m.blks ∧
          o.args.take 2 = [c, e % 4] ∧ o.bytes = wire 64 m.tag m.blks) ∧
        (∀ h ∈ (cluAt c t).held, sameMsg m h.2 = false) ∧ t.regs = s.regs ∧ t.mem = s.mem)) ∧
      (free = true → Answers (.beatForward c m false) s (fun t => (e % 4, m) ∈ (cluAt c t).held ∧ t.out = s.out ∧ t.regs = s.regs ∧
        t.mem = s.mem))) ∧
    (m.tag.dcl = c → m.tag.kind ≤ 4 → m.tag.vc ≠ 3 →
      (msgForeign c m s = true → Answers (.dataMessageAccept c m) s (fun t =>
        rf (.clu c) 0x31C 7 0 t = satAdd 8 (rf (.clu c) 0x31C 7 0 s) (msgBeats m) ∧ t.clus = s.clus ∧ t.units = s.units ∧ sameMem s t)) ∧
      (msgForeign c m s = false → dstFenced c m s = true → Answers (.dataMessageAccept c m) s (fun t => answers 7 rsFENCEDDST c t ∧
        t.clus = s.clus ∧ t.units = s.units ∧ sameRegs noReg s t ∧ t.mem = s.mem)) ∧
      (msgForeign c m s = false → dstFenced c m s = false → badSub c m = true → Answers (.dataMessageAccept c m) s (fun t => answers 7 rsBADSUB c t ∧
        t.clus = s.clus ∧ t.units = s.units ∧ sameRegs noReg s t ∧ t.mem = s.mem)) ∧
      (msgForeign c m s = false → dstFenced c m s = false → badSub c m = false → unitCut c m s = true → Answers (.dataMessageAccept c m) s (fun t =>
        answers 7 rsLINKDOWN c t ∧ t.clus = s.clus ∧ t.units = s.units ∧ sameRegs noReg s t ∧ t.mem = s.mem)) ∧
      (msgForeign c m s = false → dstFenced c m s = false → badSub c m = false → unitCut c m s = false → msgWaits c m s = true →
        Answers (.dataMessageAccept c m) s (fun t => t = s)) ∧
      (msgForeign c m s = false → dstFenced c m s = false → badSub c m = false → unitCut c m s = false → msgWaits c m s = false → m.bad = [] →
        Answers (.dataMessageAccept c m) s (fun t => answers 6 0 c t ∧ sameMem s t ∧
          (m.tag.kind = 2 → replaced c m.step 2 m.tag.sub (msgSrc m) s = none → ∀ k, physOf c m.tag.sub s = some k →
            (unitAt c k t).filling = (unitAt c k s).filling ++ m.blks) ∧
          (m.tag.kind = 0 → ∀ b, m.blks = [b] → b.fmt ≠ .zb → pantryLine (cluAt c t) m.tag.sub = b)))) ∧
    (m.tag.dcl ≠ c ∨ 0xA < m.tag.kind ∨ m.tag.vc = 3 → m.bad = [] → Answers (.dataMessageAccept c m) s (fun t =>
      rf (.clu c) 0x31C 31 24 t = satAdd 8 (rf (.clu c) 0x31C 31 24 s) (msgBeats m) ∧ t.units = s.units ∧ sameMem s t))) ∧
  (∀ (c : Nat) (b : CBeat) (m : Sent) (s : State), c < 16384 → b.tagOk = true ∨ b.dataOk = true → b.tag.dcl = c → foreign c b.tag.pitch s = false →
    (cluAt c s).sent.find? (fun m => m.id = b.id) = some m → m.targets = [b.target] →
    ((cluAt c s).tokWait.find? (fun w => w.1 = m.step) = none →
      Answers (.ackArrival c b) s (fun t => (∀ x ∈ (cluAt c t).sent, x.id ≠ b.id) ∧
        (∀ x ∈ (cluAt c s).sent, x.id ≠ b.id → x ∈ (cluAt c t).sent) ∧ sameRegs noReg s t ∧ t.mem = s.mem) ∧
      Answers (.refuseArrival c b) s (fun t => (∀ x ∈ (cluAt c t).sent, x.id ≠ b.id) ∧ sameMem s t ∧
        rf (srcPage 71) (srcOff 0x900 71) 15 0 t = satAdd 16 (rf (srcPage 71) (srcOff 0x900 71) 15 0 s) 1 ∧
        (if b.tag.fmt = rsFENCEDDST then rf (.clu c) 0x31C 23 16 t = satAdd 8 (rf (.clu c) 0x31C 23 16 s) 1
         else rf (.clu c) 0x31C 15 8 t = satAdd 8 (rf (.clu c) 0x31C 15 8 s) 1) ∧
        rf (.clu c) 0x31C 31 24 t = satAdd 8 (rf (.clu c) 0x31C 31 24 s) (if rsBADSUB < b.tag.fmt then 1 else 0) ∧
        sameRegs (oneReg (.clu c) 0x31C) s t)) ∧
    (∀ entry ctr, (cluAt c s).sent = [m] → (cluAt c s).armed = [] → (cluAt c s).tokWait = [(m.step, entry, ctr)] →
      Answers (.ackArrival c b) s (fun t => (cluAt c t).tokWait = [] ∧ sameRegs noReg s t ∧ t.mem = s.mem ∧
        ∀ d ∈ routeTargets (SMap.get 0 (cluAt c s).rte entry), ∃ o ∈ t.out, ∃ id, o.kind = .control ∧
          o.args = [5, c, d, id, d, ctr, 0, pitchOfClu c s])))

/-- Multicasts and links (R341–R345): with room in every branch a router sends the message on by each; MCSTALL µs without the last answer
latch a record and raise NET_MCSTALL once; a link of the mesh or of the unit level that fails is marked, recorded and raised (R344, R367), and a
router with two links down within a millisecond is fenced (R524); a cluster fence is requested, and in force at once where the cluster is at a
boundary. -/
def Obligations.MulticastLinksFences : Prop :=
  (∀ (c : Nat) (m : PMsg) (entry : Nat) (room : List Nat) (s : State), (cluAt c s).mcast = [] →
    let bs := mcBranches c m.tag.scl (SMap.get 0 (cluAt m.tag.scl s).rte entry)
    (∀ b ∈ bs, b ∈ room ∧ (b < 4 → linkBad c b s = false)) → Answers (.multicastReplicate c m entry room) s (fun t =>
      (cluAt c t).mcast = [] ∧ t.regs = s.regs ∧ t.mem = s.mem ∧
      t.out = s.out ++ bs.map (fun b => {
        kind := .portage, args := [c, b, m.tag.scl, m.id, m.step, m.tag.kind, m.tag.sub, 1, m.tag.pitch, m.tag.bank, entry] ++ m.bad,
        blks := m.blks, bytes := wire 64 { m.tag with vc := 1 } m.blks }))) ∧
  (∀ (c id : Nat) (m : Sent) (s : State), c < 16384 → (cluAt c s).sent = [m] → m.id = id → fld (SMap.get 0 (cluAt c s).rte m.entry) 1 0 = 2 →
    m.late = false → m.since + usec * rf (.clu c) 0x314 7 0 s ≤ now s → Answers (.multicastStall c id) s (fun t =>
      (cluAt c t).sent = [{ m with late := true }] ∧ rb (.clu c) 0x324 31 t = true ∧ sameMem s t ∧
      rf (srcPage 72) (srcOff 0x900 72) 15 0 t = satAdd 16 (rf (srcPage 72) (srcOff 0x900 72) 15 0 s) 1)) ∧
  (∀ (c port : Nat) (ends : Nat × Nat) (s : State), c < 16384 →
    let told (t : State) : Prop := t.records.length = s.records.length + 1 ∧
      rf (srcPage 73) (srcOff 0x900 73) 15 0 t = satAdd 16 (rf (srcPage 73) (srcOff 0x900 73) 15 0 s) 1
    (port < 4 → rb (.clu c) 0x320 port s = false →
      Answers (.linkDown c port ends) s (fun t => rb (.clu c) 0x320 port t = true ∧ (∀ h ∈ (cluAt c t).held, h.1 ≠ port) ∧
        s.records.length < t.records.length ∧ sameMem s t ∧ (s.downs = [] → told t)) ∧
      (∀ d at_ a b, neighbour c port = some d → (at_, a, b) ∈ s.downs → now s ≤ at_ + millisecond → a = c ∨ b = c → (a, b) ≠ (min c d, max c d) →
        (cluAt c s).fenceReq = false → Answers (.linkDown c port ends) s (fun t => rb (.clu c) 0x314 16 t = true))) ∧
    (let row := linkRow c ends.1 ends.2 s
     unitLink ends.1 ends.2 = true → unitDown c ends.1 ends.2 s = false → row < 8 → Answers (.linkDown c 4 ends) s (fun t =>
      unitDown c ends.1 ends.2 t = true ∧ rb (.clu c) 0x320 (4 + row) t = true ∧ s.records.length < t.records.length ∧ sameMem s t)) ∧
    (port < 4 → rb (.clu c) 0x320 port s = true → Answers (.linkDown c port ends) s (fun t => t = s)) ∧
    (unitLink ends.1 ends.2 = false ∨ unitDown c ends.1 ends.2 s = true → Answers (.linkDown c 4 ends) s (fun t => t = s))) ∧
  (∀ (q : Requester) (c : Nat) (s : State), c < 16384 → q ≠ .mgmt → pageOff (.clu c) s = false → Answers (.clusterFence q c) s (fun t =>
    rb (.clu c) 0x314 16 t = true ∧ (cluAt c t).fenceReq = true ∧ (atBoundary c s = true → (cluAt c t).fenced = true) ∧
    (atBoundary c s = false → (cluAt c t).fenced = (cluAt c s).fenced) ∧ sameMem s t))

-- The Guyline and verdicts (R152, R346, R357–R361, R502, R668) -------------------------------------------------------------------------------

/-- Guyline words and answers (R357, R359, R361): resends are counted up to three, a fourth failure counts a link down and raises GUY_LINK, a
reserved class is counted; the epoch message changes nothing here (log entry 12); REGRSP answers its requester, OFF with 0; INTR counts an
event of its source. Fences, banks, counts and ranges over the Guyline (R152, R252, R346, R359): a fence message fences or lifts what it
names; ROUTESW sends every cluster of the region to its other bank; COUNTS adds to the layer's counter, saturating; RANGE marks the batch slot
once. -/
def Obligations.Guyline : Prop :=
  ((∀ (cls fails : Nat) (s : State), fails ≤ 3 → cls ≤ 0xD → Answers (.guylineWord cls fails) s (fun t =>
    rf pgDie 0x180 15 8 t = satAdd 8 (rf pgDie 0x180 15 8 s) fails ∧ rf pgDie 0x180 7 0 t = rf pgDie 0x180 7 0 s ∧
    rf pgDie 0x180 23 16 t = rf pgDie 0x180 23 16 s ∧ t.out = s.out ∧ sameRegs (oneReg pgDie 0x180) s t ∧ sameMem s t)) ∧
  (∀ (cls fails : Nat) (s : State), fails ≤ 3 → 0xD < cls → Answers (.guylineWord cls fails) s (fun t =>
    rf pgDie 0x180 23 16 t = satAdd 8 (rf pgDie 0x180 23 16 s) 1 ∧ sameRegs (oneReg pgDie 0x180) s t ∧ sameMem s t)) ∧
  (∀ (cls fails : Nat) (s : State), 3 < fails → Answers (.guylineWord cls fails) s (fun t =>
    rf pgDie 0x180 7 0 t = satAdd 8 (rf pgDie 0x180 7 0 s) 1 ∧ rf pgDie 0x180 15 8 t = satAdd 8 (rf pgDie 0x180 15 8 s) 3 ∧
    rf (srcPage 74) (srcOff 0x900 74) 15 0 t = satAdd 16 (rf (srcPage 74) (srcOff 0x900 74) 15 0 s) 1 ∧
    t.records.length = s.records.length + 1 ∧ sameMem s t)) ∧
  (∀ (c : Nat) (s : State), Answers (.epochMessage c) s (fun t => t = s)) ∧
  (∀ (q : Requester) (v : Word) (s : State), Answers (.regrsp q stOK v) s (fun t => t = say .regValue [reqNo q, stOK, v.toNat] s) ∧
    Answers (.regrsp q stOFF v) s (fun t => t = say .regValue [reqNo q, stOFF, 0] s)) ∧
  (∀ (r i : Nat) (s : State), r < 64 → i < 16 → Answers (.intr r i) s (fun t =>
    rf (srcPage (rgnSrc r i)) (srcOff 0x900 (rgnSrc r i)) 15 0 t =
      satAdd 16 (rf (srcPage (rgnSrc r i)) (srcOff 0x900 (rgnSrc r i)) 15 0 s) 1 ∧ t.out = s.out ∧ sameRegs noReg s t ∧ sameMem s t))) ∧
  ((∀ (c slot : Nat) (lift : Bool) (s : State), c < 16384 → slot < 68 → Answers (.fenceMessage 0 c slot lift) s (fun t =>
    rb (.unit c slot) 0x804 0 t = (!lift) ∧ (cluIdle c s = true → slotQuiet c slot s = true → (unitAt c slot t).fenced = (!lift)) ∧ sameMem s t)) ∧
  (∀ (c slot : Nat) (lift : Bool) (s : State), 68 ≤ slot → Answers (.fenceMessage 0 c slot lift) s (fun t =>
    (cluAt c t).fenceReq = (!lift) ∧ sameMem s t)) ∧
  (∀ (r slot : Nat) (s : State), Answers (.fenceMessage 1 r slot false) s (fun t => (rgnAt r t).fenced = true ∧ sameMem s t)) ∧
  (∀ (r : Nat) (s : State), r < 64 → Answers (.routesw r) s (fun t => sameMem s t ∧ ∀ c ∈ rgnClusters r,
    (atBoundary c s = true → (cluAt c t).bank = 1 - (cluAt c s).bank) ∧
    (atBoundary c s = false → (cluAt c t).bank = (cluAt c s).bank ∧ (cluAt c t).bankNext = some (1 - (cluAt c s).bank)))) ∧
  (∀ (c layer kind n : Nat) (s : State), layer < 256 → kind < 4 → Answers (.counts c [(layer, kind, n)]) s (fun t =>
    layerWord layer kind t = word (satAdd 32 (layerWord layer kind s).toNat n) ∧
    (∀ l k, l < 256 → k < 4 → (l, k) ≠ (layer, kind) → layerWord l k t = layerWord l k s) ∧ sameRegs noReg s t ∧ sameMem s t)) ∧
  (∀ (c step bslot pitch n : Nat) (b : Batch) (s : State), slotOfPitch pitch s = some n → (slotAt n s).batches = [b] → (slotAt n s).exiting = [] →
    b.entry ≤ step → b.tokens.any (fun t => t.1 = bslot) = true → Answers (.rangeMessage c step bslot pitch) s (fun t =>
      (b.no, bslot) ∈ (slotAt n t).marked ∧ (∀ e ∈ (slotAt n t).marked, e = (b.no, bslot) ∨ e ∈ (slotAt n s).marked) ∧ t.regs = s.regs ∧
      t.mem = s.mem)))

/-- VERDICT (R499, R502, R766): it is counted; a replayable failure of an image whose window covers its slack, not absorbed by the rollback in
force, orders a rollback to its step with the next generation; with a smaller window, or once the ladder has fenced the unit of a permanent failure
(R515), it is final, is recorded, and releases its cluster. -/
def Obligations.VerdictsAtDie : Prop :=
  ∀ (c step gen origin cause pitch pslot n : Nat) (s : State), slotOfPitch pitch s = some n → (slotAt n s).st ≠ .aborting → (slotAt n s).st ≠ .ended →
    replayable origin = true →
    ((slotAt n s).slack ≤ (slotAt n s).window → (netOrigin origin = false → ladderSpent c step pslot s = false) →
      absorbed (slotAt n s) step gen = false →
      Answers (.verdict c step gen origin cause pitch pslot none) s (fun t =>
        (slotAt n t).rollTo = some step ∧ (slotAt n t).gen = ((slotAt n s).gen + 1) % 16 ∧
        rf pgDie 0x230 31 0 t = satAdd 32 (rf pgDie 0x230 31 0 s) 1 ∧ rf pgDie 0x234 31 0 t = satAdd 32 (rf pgDie 0x234 31 0 s) 1 ∧ sameMem s t)) ∧
    ((slotAt n s).slack ≤ (slotAt n s).window → netOrigin origin = false → ladderSpent c step pslot s = true →
      Answers (.verdict c step gen origin cause pitch pslot none) s (fun t =>
        (cluAt c t).hold = false ∧ (slotAt n t) = slotAt n s ∧ rf pgDie 0x24C 31 0 t = satAdd 32 (rf pgDie 0x24C 31 0 s) 1 ∧
        t.records.length = s.records.length + 1 ∧ sameMem s t)) ∧
    ((slotAt n s).window < (slotAt n s).slack → Answers (.verdict c step gen origin cause pitch pslot none) s (fun t =>
      (cluAt c t).hold = false ∧ (slotAt n t) = slotAt n s ∧ rf pgDie 0x24C 31 0 t = satAdd 32 (rf pgDie 0x24C 31 0 s) 1 ∧
      t.records.length = s.records.length + 1 ∧ sameMem s t))

-- Stack controllers (R375–R388) -------------------------------------------------------------------------------------------

/-- Requests to a stack (R378, R379, R383, R385–R387): a read that nothing refuses answers OK with the bytes as memory holds them, CORR
where one symbol of a sector was corrected, UNCORR where more failed, with the counts of STK_ECC and the address latched; three or more symbols that
the code misses count as a correction, and what is then written back, free bytes of that sector alone, is what is delivered; reports of the stack's own
code are counted (R373, R393); a write stores its
bytes and no other, so that a later read of the sector gives them; a malformed request is BADREQ, one to a fenced stack FENCED, one off the
pitch's extents RANGE, counted; SYS of a request that no die agent sent does not lift that check (R384). Of a request whose beats pass parity; one
with a beat that fails is recorded by the controller (R328). -/
def Obligations.StackRequests : Prop :=
  ∀ (m : MemReq) (n loc : Nat) (s : State), placeOf m.addr s = some (n, loc) →
    let last (st : Nat) (bad : List Nat) (data : List Byte) (t : State) : Prop :=
      t.out.getLast? = some { kind := .memRsp, args := [m.scl, m.tag, m.pitch, st] ++ bad, blks := [], bytes := data }
    (∀ i, m.bad = [i] → memRefusal m 32 s = none → rb (pgStk n) 0x104 0 s = true → Answers (.memrd m []) s (fun t =>
      rb (pgStk n) 0x010 errPARITY t = true ∧ last memOK [] (memRead m.addr (32 * m.count) s) t ∧ sameMem s t)) ∧
    (m.bad = [] → memRefusal m 32 s = none → rb (pgStk n) 0x104 0 s = true → Answers (.memrd m []) s (fun t =>
      last memOK [] (memRead m.addr (32 * m.count) s) t ∧ sameRegs noReg s t ∧ sameMem s t)) ∧
    (∀ e : SectErr, m.bad = [] → m.count = 1 → memRefusal m 32 s = none → rb (pgStk n) 0x104 0 s = true → e.addr = m.addr →
      (e.syms = 1 → Answers (.memrd m [e]) s (fun t => last memCORR [] (memRead m.addr 32 s) t ∧
        rf (pgStk n) 0x108 11 0 t = satAdd 12 (rf (pgStk n) 0x108 11 0 s) 1 ∧ sameRegs (oneReg (pgStk n) 0x108) s t ∧ sameMem s t)) ∧
      (wrongSect e = true → Answers (.memrd m [e]) s (fun t => last memCORR [] (memRead m.addr 32 t) t ∧
        rf (pgStk n) 0x108 11 0 t = satAdd 12 (rf (pgStk n) 0x108 11 0 s) 1 ∧
        (∀ k l, l < stackSize → (∀ a, m.addr ≤ a → a < m.addr + 32 → placeOf a s ≠ some (k, l)) → locByte k l t = locByte k l s))) ∧
      (e.odecc ≠ 0 → Answers (.memrd m [e]) s (fun t =>
        rf (pgStk n) 0x108 31 24 t = satAdd 8 (rf (pgStk n) 0x108 31 24 s) e.odecc)) ∧
      (2 ≤ e.syms → wrongSect e = false → 32 ≤ e.pin → Answers (.memrd m [e]) s (fun t => (∃ data, data.length = 32 ∧ last memUNCORR [0] data t) ∧
        rf (pgStk n) 0x108 19 12 t = satAdd 8 (rf (pgStk n) 0x108 19 12 s) 1 ∧ rd (pgStk n) 0x10C t = word loc ∧
        rf (pgStk n) 0x110 3 0 t = loc / 2 ^ 32 % 16 ∧ sameMem s t))) ∧
    (m.bad = [] → m.count = 0 ∨ 32 < m.count ∨ m.rsv = true ∨ m.addr % 32 ≠ 0 → Answers (.memrd m []) s (fun t => last memBADREQ [] [] t ∧ t.regs = s.regs ∧
      t.mem = s.mem)) ∧
    (m.bad = [] → 1 ≤ m.count → m.count ≤ 32 → m.rsv = false → m.addr % 32 = 0 → m.addr % groupSize + 32 * m.count ≤ groupSize → stkFenced n s = true →
      Answers (.memrd m []) s (fun t => last memFENCED [] [] t ∧ t.regs = s.regs ∧ t.mem = s.mem)) ∧
    (m.agent = false → addrFenced m.addr s = false → addrFenced (m.addr + 32 * (m.count - 1)) s = false → 1 ≤ m.count → m.count ≤ 32 →
      m.rsv = false → m.addr % 32 = 0 → inExtents (pitchExtents m.pitch s) m.addr m.count = false → Answers (.memrd m []) s (fun t =>
        last memRANGE [] [] t ∧ t.mem = s.mem)) ∧
    (m.bad = [] → memRefusal m 32 s = some memRANGE → Answers (.memrd m []) s (fun t => last memRANGE [] [] t ∧
      rf (pgStk n) 0x104 31 16 t = satAdd 16 (rf (pgStk n) 0x104 31 16 s) 1 ∧ sameRegs (oneReg (pgStk n) 0x104) s t ∧ t.mem = s.mem)) ∧
    (∀ data : List Byte, m.bad = [] → memRefusal m 30 s = none → rb (pgStk n) 0x104 0 s = true → Answers (.memwr m data []) s (fun t =>
      last memOK [] [] t ∧ memRead m.addr (32 * m.count) t = slice data 0 (32 * m.count) ∧
      (∀ k l, l < stackSize → (∀ a, m.addr ≤ a → a < m.addr + 32 * m.count → placeOf a s ≠ some (k, l)) → locByte k l t = locByte k l s) ∧
      sameRegs noReg s t)) ∧
    (∀ data causes, memRefusal m 30 s = some memRANGE → Answers (.memwr m data causes) s (fun t => last memRANGE [] [] t ∧ t.mem = s.mem))

/-- Answers of memory, the patrol, and a stack fence (R226, R273, R381, R386, R388, R395): a line of data reaches its Pantry line, at the
width of the block held there (R123; log entry 98), or Stove SRAM, failed where a sector was uncorrectable; a status with no access brings none; the patrol reads the next sector and counts a pass, and
shows the stack's temperature where the test port read it (R373, R392); a
fence takes effect at once and is complete once no image on the range aborts. -/
def Obligations.StackUpkeep : Prop :=
  (∀ (dest line st : Nat) (data : List Byte) (bad : List Nat) (s : State), st ≤ 2 → dest < 16384 → data.length = 64 →
    let fmt : BlkFmt := match lineAt (cluAt dest s) line with
      | .blk b => if b.fmt = .a4 then .a4 else .a8
      | .tail _ => .a8
    Answers (.memrsp dest line st data bad) s (fun t =>
      (∃ a b z w, pantryLine (cluAt dest t) (line % 512) = { takeBlk (blkFrom fmt data) with pt := a, sid := b, bslot := z, cause := w } ∧
        (if st = memUNCORR ∧ (bad.contains 0 ∨ bad.contains 1) then causeFails w = true else w = causePass)) ∧
      (∀ l, l ≠ line % 512 → lineAt (cluAt dest t) l = lineAt (cluAt dest s) l) ∧ (∀ c, c ≠ dest → cluAt c t = cluAt c s) ∧
      sameRegs noReg s t ∧ sameMem s t)) ∧
  (∀ (r line st : Nat) (data : List Byte) (s : State), st ≤ 2 → Answers (.memrsp (16384 + r) line st data []) s (fun t =>
    (∀ i b, data[i]? = some b → SMap.get 0 (rgnAt r t).sram (64 * line + i) = b) ∧
    (∀ k, k < 64 * line ∨ 64 * line + data.length ≤ k → SMap.get 0 (rgnAt r t).sram k = SMap.get 0 (rgnAt r s).sram k) ∧
    t.regs = s.regs ∧ t.mem = s.mem)) ∧
  (∀ (dest line st : Nat) (data : List Byte) (bad : List Nat) (s : State), 2 < st → Answers (.memrsp dest line st data bad) s (fun t => t = s)) ∧
  (∀ (n : Nat) (temp : Option (Nat × Bool)) (s : State), n < 20 → rb (pgStk n) 0x104 0 s = true → Answers (.patrolRead n none temp) s (fun t =>
    (∀ c hot, temp = some (c, hot) → c < 16 → rf (pgStk n) 0x104 7 4 t = c ∧ rb (pgStk n) 0x104 3 t = hot) ∧
    (stkAt n t).patrol = ((stkAt n s).patrol + 1) % stackSectors ∧
    rf (pgStk n) 0x114 31 16 t = (if (stkAt n t).patrol = 0 then satAdd 16 (rf (pgStk n) 0x114 31 16 s) 1 else rf (pgStk n) 0x114 31 16 s) ∧
    sameRegs (fun p off => decide (p = pgStk n ∧ (off = 0x114 ∨ (off = 0x104 ∧ temp.isSome)))) s t ∧ sameMem s t)) ∧
  (∀ (q : Requester) (n : Nat) (s : State), n < 20 → q ≠ .mgmt → stkFenced n s = false → Answers (.stackFence q n) s (fun t =>
    stkFenced n t = true ∧ rb (pgStk n) 0x104 0 t = false ∧ (stkAt n t).fencing = true)) ∧
  (∀ (n : Nat) (s : State), n < 20 → (stkAt n s).fencing = true → (∀ k, k < 16 → (slotAt k s).st ≠ .aborting) →
    Answers (.stackFenceComplete n) s (fun t => (stkAt n t).fencing = false ∧ rb (pgStk n) 0x104 1 t = true ∧ rb (pgStk n) 0x104 2 t = true ∧
      (∀ r, r < 64 → rb (pgRgn r) (0x140 + 4 * n) 16 t = true) ∧
      sameRegs (fun p off => decide (p = pgStk n ∧ off = 0x104) || (List.range 64).any (fun r => decide (p = pgRgn r ∧ off = 0x140 + 4 * n))) s t ∧
      sameMem s t))

-- The loader (R397–R432) -----------------------------------------------------------------------------------------------------

/-- The loader's commands and states (R404, R406–R408, R424, R428, R429): LOAD is accepted in IDLE, ABORT fails a load in progress with its
code and leaves what it claimed BLANK, with a row in progress completed first (R429), ACK returns DONE and FAILED to IDLE, and each is ignored and recorded otherwise; CHECKMAN fails with the code and index of the first
check that fails, or takes a residency record; CLAIM fails on a fenced target, waits for one not released, and claims. -/
def Obligations.LoaderStates : Prop :=
  (∀ (q : Requester) (mode plane up down : Nat) (s : State), q ≠ .mgmt → mode ≤ 2 → plane ≤ 2 → up < 16 → down < 16 →
    (mode = 1 → rowPortsBad up down = false) →
    (ldState s = 0 → Answers (.load q mode plane up down) s (fun t => ldState t = 1 ∧ t.ld.man = sfsAddr 0x104 s ∧ t.ld.mode = mode ∧
      t.ld.claims = [] ∧ (∀ i, i < 3 → rd pgSfs (0x11C + 4 * i) t = 0) ∧ sameMem s t)) ∧
    (ldState s ≠ 0 → Answers (.load q mode plane up down) s (fun t => t.ld = s.ld ∧ rb pgSfs 0x010 errOPIGN t = true ∧ sameRegs noReg s t ∧
      sameMem s t))) ∧
  (∀ (q : Requester) (s : State), q ≠ .mgmt →
    (1 ≤ ldState s → ldState s ≤ 4 → Answers (.loadAbort q) s (fun t => ldState t = 7 ∧ rf pgSfs 0x114 31 24 t = 0x0A ∧ rd pgSfs 0x118 t = 0 ∧
      t.ld.claims = [] ∧ t.ld.shard = none ∧ sameMem s t ∧
      (∀ k ∈ s.ld.claims, ∀ n, physOf (keyClu k) (keyUnit k) s = some n →
        let y := (unitAt (keyClu k) n s).plane (keyPlane k)
        let z := (unitAt (keyClu k) n t).plane (keyPlane k)
        if y.st = .programming ∧ y.kind = .load ∧ rowOpen y = true then z.st = .programming ∧ z.yields = true else z.st = .blank))) ∧
    (ldState s = 0 ∨ 5 ≤ ldState s → Answers (.loadAbort q) s (fun t => t.ld = s.ld ∧ rb pgSfs 0x010 errOPIGN t = true ∧ sameRegs noReg s t ∧
      sameMem s t)) ∧
    (6 ≤ ldState s → Answers (.loadAck q) s (fun t => ldState t = 0 ∧ sameRegs (oneReg pgSfs 0x114) s t ∧ sameMem s t)) ∧
    (ldState s < 6 → Answers (.loadAck q) s (fun t => ldState t = ldState s ∧ rb pgSfs 0x010 errOPIGN t = true ∧ sameRegs noReg s t ∧
      sameMem s t))) ∧
  (∀ (s : State), ldState s = 1 →
    (∀ f, mfCheck s.ld s = some f → s.ld.claims = [] → Answers .manifestCheckComplete s (fun t => ldState t = 7 ∧
      rf pgSfs 0x114 31 24 t = f.code % 256 ∧ rd pgSfs 0x118 t = word f.index ∧ t.resrecs = s.resrecs ∧
      rf (srcPage 77) (srcOff 0x900 77) 15 0 t = satAdd 16 (rf (srcPage 77) (srcOff 0x900 77) 15 0 s) 1 ∧ sameMem s t)) ∧
    (∀ n, mfCheck s.ld s = none → s.ld.mode ≠ 2 → firstBelow 256 (fun n => decide ((SMap.get ResRec.free s.resrecs n).st = 0)) = some n →
      Answers .manifestCheckComplete s (fun t => ldState t = 2 ∧ rf pgSfs 0x114 19 12 t = n ∧ (SMap.get ResRec.free t.resrecs n).st = 3 ∧
        (SMap.get ResRec.free t.resrecs n).digest = mDigest s.ld.man s ∧ t.ld.digest = mDigest s.ld.man s ∧ sameMem s t))) ∧
  (∀ (s : State), ldState s = 2 →
    (∀ c u p, (targets s.ld.plane s).find? (fun t => targetFenced t.1 t.2.1 s) = some (c, u, p) → Answers .claimComplete s (fun t => ldState t = 7 ∧
      rf pgSfs 0x114 31 24 t = 0x0C ∧ rd pgSfs 0x118 t = word (tileOfKey (upKey c u p) s) ∧ sameMem s t)) ∧
    ((targets s.ld.plane s).find? (fun t => targetFenced t.1 t.2.1 s) = none →
      (claimPlane s = none → Answers .claimComplete s (fun t => ldState t = 2 ∧ rb pgSfs 0x114 4 t = true ∧ t.ld = s.ld ∧
        sameRegs (oneReg pgSfs 0x114) s t ∧ sameMem s t)) ∧
      (∀ p, claimPlane s = some p → Answers .claimComplete s (fun t => ldState t = 3 ∧ rb pgSfs 0x114 4 t = false ∧ t.ld.plane = p ∧
        t.ld.claims = (targets p s).map (fun e => upKey e.1 e.2.1 e.2.2) ∧ sameMem s t)))) ∧
  (∀ (copy : Nat) (s : State), copy ≤ 2 → rb pgLog 0x100 copy s = true →
    (SMap.get 0 s.logFails copy < 2 → Answers (.logbookWriteComplete copy false) s (fun t =>
      SMap.get 0 t.logFails copy = SMap.get 0 s.logFails copy + 1 ∧ t.regs = s.regs ∧ t.mem = s.mem)) ∧
    (2 ≤ SMap.get 0 s.logFails copy → Answers (.logbookWriteComplete copy false) s (fun t => rb pgLog 0x100 copy t = false ∧
      sameRegs (oneReg pgLog 0x100) s t ∧ t.mem = s.mem)) ∧
    (∀ k, ldState s = 5 → s.ld.copies = [k] → k ≠ copy → Answers (.logbookWriteComplete copy true) s (fun t => ldState t = 6 ∧
      SMap.get 0 t.logFails copy = 0 ∧ rd pgSfs 0x118 t = 0 ∧ rf pgSfs 0x114 31 24 t = 0 ∧
      (SMap.get ResRec.free t.resrecs (rf pgSfs 0x114 19 12 s)).st = 1 ∧
      (∀ key ∈ s.ld.claims, ∀ n, physOf (keyClu key) (keyUnit key) s = some n →
        ((unitAt (keyClu key) n t).plane (keyPlane key)).st = .resident ∧ key ∈ (SMap.get ResRec.free t.resrecs (rf pgSfs 0x114 19 12 s)).members) ∧
      sameMem s t)) ∧
    (ldState s = 5 → s.ld.copies = [] → Answers (.logbookWriteComplete copy true) s (fun t => t.ld.copies = [copy] ∧ ldState t = 5 ∧
      t.regs = s.regs ∧ t.mem = s.mem)))

/-- Fetching shards (R409–R414, R481): bytes of the source in turn join those held, of a stack as memory holds them; a shard whose digest fails is
counted and asked of the next source, as after a timeout or NOTHELD; bytes of a source that lost its turn are late, discarded and counted (R602,
R627); one that verifies is kept; WAIT starts the time again; a neighbour's
request for a shard that is not here is answered NOTHELD. Tile records (R416, R422, R423, R425–R427): a band whose bytes are all held sends
the record of its tile; a message of a record is held and answered OK at a claimed unit, and answered RANGE, BADREQ or FENCED otherwise; the
checks of one claimed unit-plane lead to COMMIT when they pass, and to its one retry when they fail. -/
def Obligations.LoaderData : Prop :=
  ((∀ (i src : Nat) (bytes : List Byte) (x : Src) (s : State), ldBusy s = true → s.ld.shard = some i → curSrc i s = some x →
    src = s.ld.turn % (shardSrcs i s).length → bytes ≠ [] → s.ld.buf.length + bytes.length < (shardAt s.ld.man i s).stored →
    (x.kind ≠ 1 → Answers (.shardBytes src bytes) s (fun t => t.ld.buf = s.ld.buf ++ bytes ∧ t.ld.since = now s ∧ t.regs = s.regs ∧
      t.mem = s.mem)) ∧
    (x.kind = 1 → rangeFenced (x.addr + s.ld.buf.length) bytes.length s = false → Answers (.shardBytes src bytes) s (fun t =>
      t.ld.buf = s.ld.buf ++ memRead (x.addr + s.ld.buf.length) bytes.length s ∧ t.regs = s.regs ∧ t.mem = s.mem))) ∧
  (∀ (i src : Nat) (bytes : List Byte) (x : Src) (s : State), ldBusy s = true → s.ld.shard = some i → curSrc i s = some x →
    src ≠ s.ld.turn % (shardSrcs i s).length → bytes ≠ [] → Answers (.shardBytes src bytes) s (fun t => t.ld = s.ld ∧
      rf pgClk 0x10C 31 0 t = satAdd 32 (rf pgClk 0x10C 31 0 s) 1 ∧ sameRegs (oneReg pgClk 0x10C) s t ∧ t.mem = s.mem)) ∧
  (∀ (p i : Nat) (bytes : List Byte) (s : State), answers p i s = true → bytes ≠ [] → bytes.length ≤ 576 →
    let x := shardAt s.ld.man i s
    let all := (s.ld.buf ++ bytes).take x.stored
    (s.ld.buf.length + bytes.length < x.stored → Answers (.shdata p i s.ld.buf.length bytes) s (fun t => t.ld.buf = s.ld.buf ++ bytes ∧
      t.regs = s.regs ∧ t.mem = s.mem)) ∧
    (x.stored ≤ s.ld.buf.length + bytes.length → sha3 all ≠ shDigest s.ld.man i s → Answers (.shdata p i s.ld.buf.length bytes) s (fun t =>
      rf pgSfs 0x124 31 16 t = satAdd 16 (rf pgSfs 0x124 31 16 s) 1 ∧ t.ld.buf = [] ∧ sameMem s t)) ∧
    (x.stored ≤ s.ld.buf.length + bytes.length → sha3 all = shDigest s.ld.man i s → x.enc = 0 → all.length = x.raw → s.ld.mode ≠ 1 →
      Answers (.shdata p i s.ld.buf.length bytes) s (fun t => SMap.get [] t.ld.raw i = all ∧
        rf pgSfs 0x11C 31 0 t = satAdd 32 (rf pgSfs 0x11C 31 0 s) 1 ∧ sameMem s t))) ∧
  (∀ (i : Nat) (s : State), ldBusy s = true → s.ld.shard = some i → s.ld.turn + 1 < rf pgSfs 0x128 27 24 s * (shardSrcs i s).length →
    let moved (t : State) : Prop := t.ld.turn = s.ld.turn + 1 ∧ t.ld.buf = [] ∧ t.ld.shard = some i ∧
      rf pgSfs 0x124 15 0 t = satAdd 16 (rf pgSfs 0x124 15 0 s) 1 ∧ sameMem s t
    (s.ld.buf = [] → s.ld.since + 10000 * rf pgSfs 0x128 23 12 s ≤ now s → Answers .shardFetchTimeout s moved) ∧
    (s.ld.buf ≠ [] → s.ld.since + 1000 * rf pgSfs 0x128 11 0 s < now s → Answers .shardFetchTimeout s moved) ∧
    (∀ p, answers p i s = true → Answers (.shref p i 1) s moved) ∧
    (∀ p, answers p i s = true → s.ld.waits < 64 → Answers (.shref p i 2) s (fun t => t.ld.waits = s.ld.waits + 1 ∧ t.ld.since = now s ∧
      t.ld.turn = s.ld.turn ∧ t.regs = s.regs ∧ t.mem = s.mem))) ∧
  (∀ (p shard off : Nat) (pre : List Byte) (s : State), p ≤ 4 → portUp p s = true → ldState s < 2 ∨ 5 < ldState s →
    s.ld.lastHeld.contains shard = false → Answers (.shreq p pre shard off) s (fun t => t = sendShref p (slice pre 0 16) shard 1 s)) ∧
  (∀ (p shard off a : Nat) (pre : List Byte) (s : State), p ≤ 4 → portUp p s = true → ldState s < 2 ∨ 5 < ldState s →
    s.ld.lastDigest.take 16 = slice pre 0 16 → s.ld.lastHeld.contains shard = true → shardHere s.ld.lastMan s.ld.lastRelay shard s = some a →
    Answers (.shreq p pre shard off) s (fun t => t = sendShard p (slice pre 0 16) shard off a (shardAt s.ld.lastMan shard s).stored s))) ∧
  ((∀ (tensor tk i : Nat) (data : List Byte) (s : State), ldBusy s = true → bandHeld s.ld.man tensor tk s = true →
    (∀ j, j < nTile s.ld.man s → ((tileAt s.ld.man j s).ten = tensor ∧ (tileAt s.ld.man j s).tk = tk ∧
      s.ld.due.contains (tileKey (tileAt s.ld.man j s) s) = true ∧ recordMay (tileKey (tileAt s.ld.man j s) s) s = true ↔ j = i)) →
    i < nTile s.ld.man s → recordOf s.ld.man (tileAt s.ld.man i s) s = some data → data ≠ [] →
    let e := tenAt s.ld.man (tileAt s.ld.man i s).ten s
    e.packed = false ∨ formLevels e.form ≤ (fmtLevels (tileAt s.ld.man i s).clu e.fmt s).length →
    Answers (.bandProcess tensor tk) s (fun t => tileKey (tileAt s.ld.man i s) s ∉ t.ld.due ∧ sameRegs noReg s t ∧ sameMem s t ∧
      ∃ o ∈ t.out, o.kind = .memReq ∧ o.bytes = data.take 960 ∧ o.args.take 2 = [1, keyClu (tileKey (tileAt s.ld.man i s) s)])) ∧
  (∀ (c u p off : Nat) (data : List Byte) (s : State),
    let last (st : Nat) (t : State) : Prop := t.out.getLast? = some { kind := .memRsp, args := [c, u, p, off, st], blks := [], bytes := [] }
    Answers (.tileRecordWrite c u p off false true data) s (fun t => last memRANGE t ∧ t.regs = s.regs ∧ t.units = s.units ∧ t.mem = s.mem) ∧
    (ldBusy s = false ∨ claimed (upKey c u p) s = false → Answers (.tileRecordWrite c u p off true true data) s (fun t => last memBADREQ t ∧
      t.regs = s.regs ∧ t.units = s.units ∧ t.mem = s.mem)) ∧
    (ldBusy s = true → claimed (upKey c u p) s = true → ∀ k, physOf c u s = some k →
      ((unitAt c k s).fenced = true → Answers (.tileRecordWrite c u p off true true data) s (fun t => last memFENCED t ∧ t.units = s.units ∧
        t.regs = s.regs ∧ t.mem = s.mem)) ∧
      ((unitAt c k s).fenced = false → (rowsIn off data).all (fun e => rowHolds e.2) = true →
        Answers (.tileRecordWrite c u p off true true data) s (fun t => last memOK t ∧ sameMem s t ∧
          ∀ e ∈ rowsIn off data, SMap.get Row.empty ((unitAt c k t).plane p).goal e.1 = e.2)) ∧
      (∀ parity, (unitAt c k s).fenced = false → parity = false ∨ (rowsIn off data).all (fun e => rowHolds e.2) = false →
        Answers (.tileRecordWrite c u p off true parity data) s (fun t =>
          { kind := OutKind.memRsp, args := [c, u, p, off, memBADREQ], blks := [], bytes := [] } ∈ t.out ∧ sameMem s t)))) ∧
  (∀ (key n : Nat) (checks : List CheckErr) (s : State), ldBusy s = true → s.ld.claims = [key] → keyClu key < 16384 → keyPlane key < 2 →
    physOf (keyClu key) (keyUnit key) s = some n → allChecking s = true →
    let s1 := setTols (keyClu key) n (keyPlane key) true [0] (setLd 4 s)
    let errs := (checks.filter (fun x => x.c = keyClu key ∧ x.slot = n ∧ x.p = keyPlane key)).flatMap (·.errs)
    ((checkReads (keyClu key) n (keyPlane key) errs s1).1 = true → Answers (.loadCheck checks) s (fun t => ldState t = 5 ∧ t.ld.copies = [] ∧
      t.out.getLast? = some { kind := .record, args := [0, 0x428, rf pgSfs 0x114 19 12 s], blks := [], bytes := [] } ∧ sameMem s t)) ∧
    ((checkReads (keyClu key) n (keyPlane key) errs s1).1 = false → ((unitAt (keyClu key) n s).plane (keyPlane key)).retried = false →
      Answers (.loadCheck checks) s (fun t => ldState t = 4 ∧ key ∈ t.ld.due ∧ sameMem s t ∧
        ((unitAt (keyClu key) n t).plane (keyPlane key)).st = .faulted ∧ ((unitAt (keyClu key) n t).plane (keyPlane key)).retried = true))))

-- Ralpor links and the torus (R444–R472, R509–R512) ------------------------------------------------------------------------------

/-- Codewords and retry (R444, R445, R448, R449, R602): an uncorrectable codeword is counted and answered with NAK; a flit in sequence is accepted
and acknowledged, with the port's XOFF bits (R450), a duplicate acknowledged again, one beyond a gap answered with NAK; after 4 µs without an
acknowledgement every flit kept is sent again, and after 8 times the port trains; flits that have waited LINKWAIT are lost and counted. Link states, lanes and the neighbour
(R446, R447, R452–R454, R487, R488): a lane fails that lost lock or corrected more symbols than the threshold; fewer than 8 good lanes train a
port, a failed active lane starts the exchange of lane maps and its end
puts the lanes in service; training ends in IDENT or DOWN; a lost signal takes a port DOWN; an enabled port with a signal trains again; an
expected neighbour brings the link up and is noted, another is a MISMATCH. -/
def Obligations.RalporLinks : Prop :=
  (∀ (p : Nat) (s : State), p < 5 →
    let ack (kind : Nat) (n : Nat) (t : State) : Prop :=
      t.out = s.out ++ [{ kind := .codeword, args := [p, n, kind, xoffOut p s], blks := [], bytes := [] }]
    (∀ cw : Codeword, linkState p s < 2 → Answers (.codewordReceive p cw) s (fun t => t = s)) ∧
    (∀ cw : Codeword, 2 ≤ linkState p s → cw.uncorr = true → Answers (.codewordReceive p cw) s (fun t => ack 2 (portAt p s).seqIn t ∧
      rf (pgRlp p) 0x11C 31 0 t = satAdd 32 (rf (pgRlp p) 0x11C 31 0 s) 1 ∧ t.ports = s.ports ∧ sameRegs (oneReg (pgRlp p) 0x11C) s t ∧ sameMem s t)) ∧
    (∀ cw : Codeword, 2 ≤ linkState p s → cw.uncorr = false → cw.ackkind = 0 → cw.flit.vc ≠ 3 → (portAt p s).wait = [] → (portAt p s).seqIn < 4096 →
      let want := (portAt p s).seqIn
      let fixed (t : State) : Prop := rf (pgRlp p) 0x118 31 0 t = satAdd 32 (rf (pgRlp p) 0x118 31 0 s) (if cw.corrected = 0 then 0 else 1)
      (cw.flit.lseq % 4096 = want → Answers (.codewordReceive p cw) s (fun t => (portAt p t).seqIn = (want + 1) % 4096 ∧
        ack 1 ((want + 1) % 4096) t ∧ fixed t ∧
        rf (pgRlp p) 0x12C 31 0 t = satAdd 32 (rf (pgRlp p) 0x12C 31 0 s) (if flitForeign p cw.flit then 1 else 0) ∧ sameMem s t)) ∧
      (∀ d, 1 ≤ d → d ≤ 1024 → (cw.flit.lseq + d) % 4096 = want → Answers (.codewordReceive p cw) s (fun t => (portAt p t).seqIn = want ∧
        ack 1 want t ∧ fixed t ∧ sameMem s t)) ∧
      (∀ d, 1 ≤ d → d < 3072 → (want + d) % 4096 = cw.flit.lseq % 4096 → Answers (.codewordReceive p cw) s (fun t =>
        (portAt p t).seqIn = want ∧ ack 2 want t ∧ fixed t ∧ sameMem s t))) ∧
    (∀ e l, 2 ≤ linkState p s → (portAt p s).replay = e :: l → e.2 + 4 * usec ≤ now s →
      ((portAt p s).resends < 8 → Answers (.replayTimeout p) s (fun t => (portAt p t).resends = (portAt p s).resends + 1 ∧
        (portAt p t).replay = (portAt p s).replay.map (fun x => (x.1, now s)) ∧
        t.out = s.out ++ (portAt p s).replay.map (fun x => { kind := .flit, args := flitArgs p x.1, blks := [], bytes := flitWire x.1 }) ∧
        rf (pgRlp p) 0x120 31 0 t = satAdd 32 (rf (pgRlp p) 0x120 31 0 s) (portAt p s).replay.length ∧
        sameRegs (oneReg (pgRlp p) 0x120) s t ∧ sameMem s t)) ∧
      (8 ≤ (portAt p s).resends → Answers (.replayTimeout p) s (fun t => linkState p t = lsTrain ∧ (portAt p t).replay = (portAt p s).replay ∧
        sameMem s t))) ∧
    (portUp p s = false → (portAt p s).wait ≠ [] → (portAt p s).downAt + msec * rf (pgRlp p) 0x100 23 16 s ≤ now s →
      Answers (.linkwaitExpiry p) s (fun t => (portAt p t).wait = [] ∧
        rf (pgRlp p) 0x128 31 0 t = satAdd 32 (rf (pgRlp p) 0x128 31 0 s) (portAt p s).wait.length ∧
        rf (srcPage 79) (srcOff 0x900 79) 15 0 t = satAdd 16 (rf (srcPage 79) (srcOff 0x900 79) 15 0 s) 1 ∧
        sameRegs (oneReg (pgRlp p) 0x128) s t ∧ sameMem s t))) ∧
  (∀ (p : Nat) (s : State), p < 5 →
    (∀ lane n, n ≤ rf (pgRlp p) 0x114 15 0 s → Answers (.laneFail p lane (some n)) s (fun t => t = s)) ∧
    (∀ lane syms, lane ≤ 17 → bit (portAt p s).good lane = true → 2 ≤ linkState p s →
      syms = none ∨ (∃ n, syms = some n ∧ rf (pgRlp p) 0x114 15 0 s < n) →
      (lanesOf (putBit (portAt p s).good lane false) = 0 → Answers (.laneFail p lane syms) s (fun t => linkState p t = lsTrain ∧
        t.records.length = s.records.length + 1 ∧ sameMem s t)) ∧
      (lanesOf (putBit (portAt p s).good lane false) ≠ 0 → bit (rf (pgRlp p) 0x104 29 12 s) lane = true → Answers (.laneFail p lane syms) s (fun t =>
        (∃ w, (portAt p t).lanemap = some (lanesOf (putBit (portAt p s).good lane false), w)) ∧ linkState p t = linkState p s ∧
        (portAt p t).good = putBit (portAt p s).good lane false ∧ sameMem s t))) ∧
    (∀ lanes cwno, lanes < 2 ^ 18 → portUp p s = true → ((List.range 18).filter (fun i => bit lanes i)).length = 16 →
      Answers (.lanemap p lanes cwno) s (fun t => linkState p t = lsUp ∧ rf (pgRlp p) 0x104 29 12 t = lanes ∧ (portAt p t).lanemap = none ∧
        sameMem s t)) ∧
    (∀ lanes cwno, lanes < 2 ^ 18 → portUp p s = true → ((List.range 18).filter (fun i => bit lanes i)).length = 8 →
      Answers (.lanemap p lanes cwno) s (fun t => linkState p t = lsDegraded ∧ rf (pgRlp p) 0x104 29 12 t = lanes ∧ sameMem s t)) ∧
    (∀ good : List Nat, linkState p s = lsTrain →
      let g := sumN (((List.range 18).filter (fun i => good.contains i)).map (fun i => 2 ^ i))
      Answers (.trainComplete p good) s (fun t => sameMem s t ∧
        (if lanesOf g = 0 then linkState p t = lsDown else linkState p t = lsIdent ∧ rf (pgRlp p) 0x104 29 12 t = lanesOf g))) ∧
    (linkState p s = lsDown → rb (pgRlp p) 0x100 0 s = true → rf pgClk 0x100 2 0 s ≠ 3 → (portAt p s).tryAt ≤ now s →
      Answers (.trainRetry p true) s (fun t => linkState p t = lsTrain ∧ sameMem s t)) ∧
    (linkState p s ≠ lsDown → Answers (.signalLoss p) s (fun t => linkState p t = lsDown ∧ t.records.length = s.records.length + 1 ∧
      (portAt p t).replay = (portAt p s).replay ∧ sameMem s t)) ∧
    (∀ q : Requester, q ≠ .mgmt →
      (rb (pgRlp p) 0x100 0 s = true → rf pgClk 0x100 2 0 s ≠ 3 → Answers (.retrain q p) s (fun t => linkState p t = lsTrain ∧
        (portAt p t).replay = (portAt p s).replay ∧ sameRegs (fun g o => decide (g = pgRlp p ∧ (o = 0x100 ∨ o = 0x104))) s t ∧ sameMem s t)) ∧
      (rb (pgRlp p) 0x100 0 s = false → Answers (.retrain q p) s (fun t => linkState p t = linkState p s ∧
        sameRegs (oneReg (pgRlp p) 0x100) s t ∧ sameMem s t))) ∧
    (∀ coord port lx ly id valid, 2 ≤ linkState p s → expected p coord id s = false → Answers (.ident p coord port lx ly id valid) s (fun t =>
      linkState p t = lsMismatch ∧ sameRegs (oneReg (pgRlp p) 0x104) s t ∧ sameMem s t)) ∧
    (∀ coord port lx ly id valid, p < 4 → linkState p s = lsIdent ∨ linkState p s = lsMismatch → expected p coord id s = true → id < 2 ^ 64 →
      Answers (.ident p coord port lx ly id valid) s (fun t =>
        linkState p t = (if rf (pgRlp p) 0x104 11 10 s = 2 then lsUp else lsDegraded) ∧
        rd (pgRlp p) 0x108 t = word (2 ^ 31 + port % 16 * 2 ^ 10 + coord % 1024) ∧ rd64 (pgRlp p) 0x10C t = id ∧ sameMem s t)))

/-- Flits of the torus (R458, R460–R465, R471): a flit of no known system pitch is counted and dropped; one for another device goes on by the hop
that the coordinates give, on the VC they give, and holds its place at the port it came by while it waits (R450); one for this device becomes messages of at most four blocks from the port's cluster and is
noted; the token of a whole action leaves once. Link actions (R466–R469, R509): the next action of a port takes its blocks; under hold egress
it waits, and leaves once its source cluster has completed its step; under early egress it leaves and is kept. A recall that is owed leaves
once the flits of its steps have. -/
def Obligations.TorusTraffic : Prop :=
  (∀ (p : Nat) (f : Flit) (s : State), p < 5 → portUp p s = true →
    (flitPitch f s = none → Answers (.dataFlit p f) s (fun t => rf (pgRlp p) 0x12C 31 0 t = satAdd 32 (rf (pgRlp p) 0x12C 31 0 s) 1 ∧
      t.ports = s.ports ∧ t.out = s.out ∧ sameRegs (oneReg (pgRlp p) 0x12C) s t ∧ sameMem s t)) ∧
    (∀ n, flitPitch f s = some n → f.dst ≠ myCoord s →
      let out := hopPort f.dst (spaRect n s) s
      (portAt out s).wait = [] → maySend out { f with vc := hopVc out p f.vc s } s = false → Answers (.dataFlit p f) s (fun t =>
        (portAt out t).wait = [{ f with vc := hopVc out p f.vc s }] ∧ (out, f.vc, { f with vc := hopVc out p f.vc s }) ∈ (portAt p t).transit ∧
        t.out = s.out ∧ t.regs = s.regs ∧ t.mem = s.mem)) ∧
    (∀ n, flitPitch f s = some n → f.dst ≠ myCoord s →
      let out := hopPort f.dst (spaRect n s) s
      (portAt out s).wait = [] → maySend out { f with vc := hopVc out p f.vc s } s = true → Answers (.dataFlit p f) s (fun t =>
        (portAt out t).wait = [] ∧ (portAt out t).seqOut = ((portAt out s).seqOut + 1) % 4096 ∧ sameRegs noReg s t ∧ t.mem = s.mem ∧
        t.out = s.out ++ [{
          kind := .flit, args := flitArgs out { f with vc := hopVc out p f.vc s, lseq := (portAt out s).seqOut }, blks := []
          bytes := flitWire { f with vc := hopVc out p f.vc s, lseq := (portAt out s).seqOut } }])) ∧
    (∀ n, flitPitch f s = some n → f.dst = myCoord s → rb pgTop (0x140 + 8 * n) 12 s = false ∨ 3 < f.fmt → Answers (.dataFlit p f) s (fun t =>
      rf (pgRlp p) 0x12C 31 0 t = satAdd 32 (rf (pgRlp p) 0x12C 31 0 s) 1 ∧ t.ports = s.ports ∧ t.out = s.out ∧ sameMem s t)) ∧
    (∀ n, flitPitch f s = some n → f.dst = myCoord s → rb pgTop (0x140 + 8 * n) 12 s = true → f.fmt ≤ 3 → f.kind = 0 → f.crcOk = true → 1 ≤ f.nblk →
      (portAt p s).log = [] → (portAt p s).drops = [] → (portAt p s).acts = [] → Answers (.dataFlit p f) s (fun t =>
        (∃ o ∈ t.out, o.kind = .portage ∧ o.args.head? = some (portCluster p) ∧ o.blks = (flitBlks f).take 4) ∧
        (∃ e, (portAt p t).log = [e] ∧ e.src = f.src ∧ e.step = f.step ∧ e.bslots = [f.slot] ∧ e.taint = false) ∧
        (∃ a, (portAt p t).acts = [a] ∧ a.src = f.src ∧ a.step = f.step ∧ a.dcl = f.dcl ∧ a.last = f.last ∧ a.sent = false) ∧ sameMem s t)) ∧
    (∀ a : InAct, (portAt p s).acts = [a] → a.last = true → a.sent = false → bit a.tokc 7 = true → a.ids = [] →
      Answers (.ingressToken p a.src a.step) s (fun t => (portAt p t).acts = [{ a with sent := true }] ∧ t.regs = s.regs ∧ t.mem = s.mem ∧
        ∃ o id, t.out = s.out ++ [o] ∧ o.kind = .control ∧ o.args = [5, portCluster p, a.dcl, id, a.dcl, a.tokc % 8, 0, a.pitch])) ∧
    (flitPitch f s = none → Answers (.recallFlit p f) s (fun t => rf (pgRlp p) 0x12C 31 0 t = satAdd 32 (rf (pgRlp p) 0x12C 31 0 s) 1 ∧
      t.ports = s.ports ∧ sameMem s t)) ∧
    (∀ n, flitPitch f s = some n → f.crcOk = false → Answers (.recallFlit p f) s (fun t =>
      rf (pgRlp p) 0x124 31 0 t = satAdd 32 (rf (pgRlp p) 0x124 31 0 s) 1 ∧ t.recalls = s.recalls ∧ sameMem s t)) ∧
    (∀ n, flitPitch f s = some n → f.crcOk = true → s.recalls = [] → Answers (.recallFlit p f) s (fun t =>
      t.recalls = [(leAt f.body 6 2, leAt f.body 0 6, now s)] ∧ sameMem s t)) ∧
    (∀ n, flitPitch f s = some n → f.crcOk = true → (leAt f.body 6 2, leAt f.body 0 6, now s) ∈ s.recalls → Answers (.recallFlit p f) s (fun t =>
      t = s))) ∧
  ((∀ (p n desc step : Nat) (bs : List Egr) (s : State), p < 5 → readyAction p s = some (n, desc, step, bs) →
    ((slotAt n s).early = false → Answers (.linkActionStart p) s (fun t =>
      (portAt p t).held = (portAt p s).held ++ [{ slot := n, desc := desc, step := step, blks := bs }] ∧
      (slotAt n t).links = (slotAt n s).links.erase (p, desc, step) ∧ t.out = s.out ∧ t.regs = s.regs ∧ t.mem = s.mem)) ∧
    ((slotAt n s).early = true → Answers (.linkActionStart p) s (fun t =>
      { slot := n, desc := desc, step := step, blks := bs } ∈ (portAt p t).kept ∧ (portAt p t).held = (portAt p s).held ∧
      (slotAt n t).links = (slotAt n s).links.erase (p, desc, step) ∧ sameMem s t))) ∧
  (∀ (p : Nat) (a : LinkAct) (s : State), p < 13 → (portAt p s).held = [a] →
    a.step < (cluAt (schedOf (slotAt a.slot s) p a.desc).srccl s).completed → a.blks.all (fun b => !b.due) = true →
    Answers (.holdConfirm p) s (fun t => (portAt p t).held = [] ∧ t.clus = s.clus ∧ t.units = s.units ∧ sameMem s t)) ∧
  (∀ (slot j : Nat) (s : State), (∃ p, p < 13 ∧ (slot, j) ∈ (portAt p s).owed) → (∀ p, p < 13 → ∀ o ∈ (portAt p s).owed, o.1 = slot → j ≤ o.2) →
    slotPeers (slotAt slot s) = [] → flitsWait (slotSpid (slotAt slot s) s) j s = false → Answers (.recallFlitSend slot) s (fun t =>
      (∀ p, p < 13 → ∀ o ∈ (portAt p t).owed, o.1 ≠ slot) ∧ (myCoord s, j, now s) ∈ t.recalls ∧ t.records.length = s.records.length + 1 ∧
      sameMem s t)))

-- Ethernet and rack time (R473–R494) ---------------------------------------------------------------------------------------------------

/-- Ethernet frames and SDT packets (R473, R475–R479): a frame that the filter refuses is counted, and a port that is not enabled takes none;
packets leave in frames of R473 and at the pace that the peer's RATE gives, none at RATE 0 (log entry 112); a packet for a path that is not open is
answered NOPATH, one in sequence moves the number on, one ahead is held; an ACK frees what it covers; OPEN and OPENACK set both numbers to 0;
an error of a reserved code is counted and NOPATH asks again; a packet not covered within RTO is sent again, and after 16 times its path
fails and is asked for anew. That a frame that comes shows the link up is the model's reading (log entry 111). -/
def Obligations.SdtPaths : Prop :=
  ∀ (e path : Nat) (s : State), e < 8 → path < 4096 →
    let sdt (kind code psn ack sack : Nat) : Out :=
      { kind := .sdt, args := [e, path, kind, 0, code, psn, ack, sack], blks := []
        bytes := ethFrame e path (sdtHeader kind 0 code path psn ack sack) s }
    (∀ f : EthFrame,
      (rb (pgEth e) 0x100 0 s = false → Answers (.ethFrameReceive e f) s (fun t => t = s)) ∧
      (rb (pgEth e) 0x100 0 s = true → Answers (.ethFrameReceive e f) s (fun t =>
        rf (pgEth e) 0x12C 31 0 t = satAdd 32 (rf (pgEth e) 0x12C 31 0 s) (if ethTakes e f s then 0 else 1) ∧
        rb (pgEth e) 0x104 0 t = true ∧ rb (pgEth e) 0x104 2 t = f.hiber ∧
        sameRegs (fun p o => decide (p = pgEth e ∧ (o = 0x104 ∨ o = 0x12C))) s t ∧ t.out = s.out ∧ t.mem = s.mem))) ∧
    (pathKnown e path s = false → ∀ psn flits, Answers (.sdtData e path psn flits) s (fun t => t = s)) ∧
    (pathKnown e path s = true →
      (∀ psn flits, (pathAt e path s).opened = false → Answers (.sdtData e path psn flits) s (fun t => t.out = s.out ++ [sdt 4 1 psn 0 0] ∧
        t.paths = s.paths ∧ sameRegs noReg s t ∧ t.mem = s.mem)) ∧
      (∀ flits, (pathAt e path s).opened = true → (pathAt e path s).ahead = [] → (pathAt e path s).psnIn < 2 ^ 32 → 1 ≤ flits.length →
        flits.length ≤ 13 → Answers (.sdtData e path (pathAt e path s).psnIn flits) s (fun t =>
          (pathAt e path t).psnIn = ((pathAt e path s).psnIn + 1) % 2 ^ 32 ∧ (pathAt e path t).opened = true ∧ sameMem s t)) ∧
      (∀ flits d, (pathAt e path s).opened = true → (pathAt e path s).ahead = [] → (pathAt e path s).psnIn < 2 ^ 32 → 1 ≤ d → d ≤ 256 →
        1 ≤ flits.length → flits.length ≤ 13 →
        let psn := ((pathAt e path s).psnIn + d) % 2 ^ 32
        Answers (.sdtData e path psn flits) s (fun t => (pathAt e path t).psnIn = (pathAt e path s).psnIn ∧
          (pathAt e path t).ahead = [(psn, flits)] ∧ sameRegs noReg s t ∧ t.mem = s.mem)) ∧
      (∀ k ackpsn sack, (pathAt e path s).sent = [k] → (pathAt e path s).wait = [] → k.psn ≠ ackpsn → (ackpsn + 2 ^ 32 - k.psn) % 2 ^ 32 < 2 ^ 31 →
        Answers (.sdtAck e path ackpsn sack) s (fun t => (pathAt e path t).sent = [] ∧ t.out = s.out ∧ t.regs = s.regs ∧ t.mem = s.mem)) ∧
      (∀ k f ackpsn sack, (pathAt e path s).sent = [k] → (pathAt e path s).wait = [f] → (pathAt e path s).opened = true → k.psn ≠ ackpsn →
        (ackpsn + 2 ^ 32 - k.psn) % 2 ^ 32 < 2 ^ 31 →
        (peerRate path s = 0 ∨ now s < (pathAt e path s).pace / 65536 → Answers (.sdtAck e path ackpsn sack) s (fun t =>
          (pathAt e path t).sent = [] ∧ (pathAt e path t).wait = [f] ∧ t.out = s.out ∧ t.regs = s.regs ∧ t.mem = s.mem)) ∧
        (0 < peerRate path s → (pathAt e path s).pace / 65536 ≤ now s → Answers (.sdtAck e path ackpsn sack) s (fun t =>
          (pathAt e path t).wait = [] ∧ (pathAt e path t).psnOut = ((pathAt e path s).psnOut + 1) % 2 ^ 32 ∧
          (pathAt e path t).pace = max (pathAt e path s).pace (now s * 65536) + (640 * 65536 + peerRate path s - 1) / peerRate path s ∧
          (∃ o ∈ t.out, o.kind = .sdt ∧ o.args.take 4 = [e, path, 0, 1]) ∧ sameRegs noReg s t ∧ t.mem = s.mem))) ∧
      ((pathAt e path s).sent = [] → (pathAt e path s).wait = [] → Answers (.sdtOpen e path) s (fun t => (pathAt e path t).opened = true ∧
        (pathAt e path t).psnIn = 0 ∧ (pathAt e path t).psnOut = 0 ∧ t.out = s.out ++ [sdt 3 0 0 0 0] ∧ t.regs = s.regs ∧ t.mem = s.mem)) ∧
      ((pathAt e path s).sent = [] → (pathAt e path s).wait = [] → (pathAt e path s).asked = true → Answers (.sdtOpenack e path) s (fun t =>
        (pathAt e path t).opened = true ∧ (pathAt e path t).asked = false ∧ (pathAt e path t).psnIn = 0 ∧ (pathAt e path t).psnOut = 0 ∧
        t.out = s.out ∧ t.regs = s.regs ∧ t.mem = s.mem)) ∧
      (∀ code psn, code = 0 ∨ 3 < code → Answers (.sdtError e path code psn) s (fun t =>
        rf (pgEth e) 0x12C 31 0 t = satAdd 32 (rf (pgEth e) 0x12C 31 0 s) 1 ∧ t.paths = s.paths ∧ sameRegs (oneReg (pgEth e) 0x12C) s t ∧
        t.mem = s.mem)) ∧
      (∀ psn, Answers (.sdtError e path 1 psn) s (fun t => (pathAt e path t).opened = false ∧ (pathAt e path t).asked = true ∧
        t.out = s.out ++ [sdt 2 0 0 0 0] ∧ t.regs = s.regs ∧ t.mem = s.mem))) ∧
    ((pathAt e path s).owed ≠ 0 → (pathAt e path s).owedAt + 2 * usec ≤ now s → Answers (.sdtAckTimer e path) s (fun t =>
      (pathAt e path t).owed = 0 ∧ (∃ sack, t.out = s.out ++ [sdt 1 0 0 (pathAt e path s).psnIn sack]) ∧ t.regs = s.regs ∧ t.mem = s.mem)) ∧
    (∀ k : SdtPkt, (pathAt e path s).sent = [k] → k.time + usec * rf (pgEth e) 0x128 31 16 s ≤ now s →
      (k.tries < 16 → paceOpen e path s = false → Answers (.sdtRto e path k.psn) s (fun t => t = s)) ∧
      (k.tries < 16 → paceOpen e path s = true → Answers (.sdtRto e path k.psn) s (fun t =>
        (pathAt e path t).sent = [{ k with tries := k.tries + 1, time := now s }] ∧
        rf (pgEth e) 0x130 31 0 t = satAdd 32 (rf (pgEth e) 0x130 31 0 s) 1 ∧ sameRegs (oneReg (pgEth e) 0x130) s t ∧ t.mem = s.mem)) ∧
      (16 ≤ k.tries → Answers (.sdtRto e path k.psn) s (fun t => (pathAt e path t).sent = [] ∧ (pathAt e path t).opened = false ∧
        (pathAt e path t).asked = ethOn e s ∧ (ethOn e s = true → t.out.getLast? = some (sdt 2 0 0 0 0)) ∧
        rf (pgEth e) 0x134 31 0 t = satAdd 32 (rf (pgEth e) 0x134 31 0 s) (k.flits.length + (pathAt e path s).wait.length) ∧
        rf (srcPage 80) (srcOff 0x900 80) 15 0 t = satAdd 16 (rf (srcPage 80) (srcOff 0x900 80) 15 0 s) 1 ∧
        sameRegs (oneReg (pgEth e) 0x134) s t ∧ t.mem = s.mem)))

/-- The peer table and rack time (R482–R484, R493, R494): an access takes the addressed word, but for bits that are reserved, and moves on; a write of TOP_RTSET_HI arms a value,
and the next EPOCH_IN edge sets rack time to the epoch boundary nearest to it; without one, to the boundary nearest to rack time, and a step
of more than two periods is counted and raised; a PTP message measures the offset. -/
def Obligations.PeersAndRackTime : Prop :=
  (∀ (q : Requester) (s : State),
    Answers (.peerDataAccess q none) s (fun t => rdQ q pgTop 0x200 t = peerNext (rdQ q pgTop 0x200 s) ∧ t.peers = s.peers ∧ t.mem = s.mem ∧
      t.out = s.out ++ [{
        kind := .regValue, blks := [], bytes := []
        args := [reqNo q, stOK, (peerWord (getF (rdQ q pgTop 0x200 s) 11 0) (getF (rdQ q pgTop 0x200 s) 14 12) s).toNat] }]) ∧
    ∀ v : Word, locked pgTop s = false → (pathAt (peerPort (getF (rdQ q pgTop 0x200 s) 11 0) s) (getF (rdQ q pgTop 0x200 s) 11 0) s).opened = false →
      Answers (.peerDataAccess q (some v)) s (fun t => rdQ q pgTop 0x200 t = peerNext (rdQ q pgTop 0x200 s) ∧ t.mem = s.mem ∧
        (let i := getF (rdQ q pgTop 0x200 s) 14 12
         let kept := if 6 ≤ i then 0 else if i = 4 then v &&& 0x03FFFFFF#32 else v
         peerWord (getF (rdQ q pgTop 0x200 s) 11 0) i t = kept ∧ (kept ≠ v → rb pgTop 0x010 errRESWR t = true)) ∧
        ∀ n i, i < 8 → (n, i) ≠ (getF (rdQ q pgTop 0x200 s) 11 0, getF (rdQ q pgTop 0x200 s) 14 12) → peerWord n i t = peerWord n i s)) ∧
  (∀ (q : Requester) (hi : Word) (s : State), Answers (.rtsetArm q hi) s (fun t =>
    t.rtArm = some ((rd pgTop 0x1C0 s).toNat + 2 ^ 32 * hi.toNat) ∧ rb pgTop 0x1C8 0 t = true ∧ rd pgTop 0x1C4 t = hi ∧ t.rack = s.rack ∧
    sameRegs (fun p o => decide (p = pgTop ∧ (o = 0x1C4 ∨ o = 0x1C8))) s t ∧ t.mem = s.mem)) ∧
  (∀ (v : Nat) (s : State), s.ptpArm = false → s.rtArm = some v → v + epochLen < 2 ^ 64 → Answers .epochIn s (fun t =>
    t.rack.toNat % epochLen = 0 ∧ 2 * (max v t.rack.toNat - min v t.rack.toNat) ≤ epochLen ∧ t.rtArm = none ∧ rb pgTop 0x1C8 0 t = false ∧
    rf pgTop 0x1C8 31 16 t = rf pgTop 0x1C8 31 16 s ∧ sameMem s t)) ∧
  (∀ (s : State), s.ptpArm = false → s.rtArm = none → now s + epochLen < 2 ^ 64 → Answers .epochIn s (fun t =>
    t.rack.toNat % epochLen = 0 ∧ 2 * (max (now s) t.rack.toNat - min (now s) t.rack.toNat) ≤ epochLen ∧
    rf pgTop 0x1C8 31 16 t = satAdd 16 (rf pgTop 0x1C8 31 16 s) (if 2 < max (now s) t.rack.toNat - min (now s) t.rack.toNat then 1 else 0) ∧
    sameMem s t)) ∧
  (∀ (e time : Nat) (lock : Bool) (s : State), e < 8 →
    (rb (pgEth e) 0x100 1 s = true → Answers (.ptpMessage e time lock) s (fun t => t.ptpOfs = some ((time : Int) - 10 * (now s : Int)) ∧
      rb (pgEth e) 0x104 1 t = lock ∧ t.rack = s.rack ∧ sameRegs (oneReg (pgEth e) 0x104) s t ∧ t.mem = s.mem)) ∧
    (rb (pgEth e) 0x100 1 s = false → Answers (.ptpMessage e time lock) s (fun t => t = s)))

-- Errors, region fences and stress tests (R516–R526) -------------------------------------------------------------------------------------

/-- Error records, region fences and stress tests (R516–R518, R525, R526): a record not acknowledged for a second is sent again; a region fence
takes effect and is recorded, and the region powers off once its charge is back; a test starts with a spare in the unit's place, and a phase
that passes leads to the next, at a supply of −2, −4, −6 and −8 % in turn, then at each lower margin code; one that fails at the unit itself leads
to its fence, one that fails only under stress to the unit's return. -/
def Obligations.ErrorsAndStress : Prop :=
  (∀ (s : State), inService s = false → (∀ r ∈ s.records, r.sentAt + second ≤ now s) → Answers .errorRecordResend s (fun t =>
    t.records = s.records.map (fun r => { r with sentAt := now s }) ∧
    t.out = s.out ++ s.records.map (fun r => { kind := .record, args := [r.seq], blks := [], bytes := r.bytes }) ∧ t.regs = s.regs ∧ t.mem = s.mem)) ∧
  (∀ (s : State), inService s = false → (∀ r ∈ s.records, now s < r.sentAt + second) → Answers .errorRecordResend s (fun t => t = s)) ∧
  (∀ (q : Requester) (r : Nat) (s : State), r < 64 → q ≠ .mgmt → (rgnAt r s).fenced = false → pageOff (pgRgn r) s = false → (rgnAt r s).jobs = [] →
    Answers (.regionFence q r) s (fun t => (rgnAt r t).fenced = true ∧ rb (pgRgn r) 0x008 1 t = true ∧ (rgnAt r t).jobs = [] ∧
      (rgnAt r t).queue = [] ∧ t.records.length = s.records.length + 1 ∧ sameMem s t)) ∧
  (∀ (r : Nat) (s : State), r < 64 → (rgnAt r s).fenced = true → rgnHolds r s = true → (rgnAt r s).off = false → (rgnAt r s).charge = 0 →
    Answers (.regionPowerOff r) s (fun t => (rgnAt r t).off = true ∧ (rgnAt r t).sram = [] ∧ (rgnAt r t).asks = [] ∧ sameMem s t)) ∧
  (∀ (r : Nat) (s : State), (rgnAt r s).fenced = false → Answers (.regionPowerOff r) s (fun t => t = s)) ∧
  (∀ (c slot l n : Nat) (ns : List Nat) (s : State), c < 16384 → slot < 64 → l < 64 → (unitAt c slot s).serves = some l → idleSpares c s = n :: ns →
    stressMay c slot s = true → (∀ i, i < 4 → i ≠ n → rf (.clu c) (0x180 + 4 * i) 10 8 s = 0 ∨ rf (.clu c) (0x180 + 4 * i) 5 0 s ≠ l) →
    Answers (.stressTestStart c slot) s (fun t =>
      t.stress = s.stress ++ [{ c := c, slot := slot, spare := n, phase := 1, rail := 0, code := rf (.unit c slot) 0x818 2 0 s, wanted := false }] ∧
      rf (.clu c) (0x180 + 4 * n) 10 8 t = 2 ∧ rf (.clu c) (0x180 + 4 * n) 5 0 t = l ∧ sameMem s t)) ∧
  (∀ (x : Stress) (s : State), x.c < 16384 → x.slot < 64 → x.spare < 4 → x.wanted = false → s.stress = [x] → x.code < 8 →
    let u := Page.unit x.c x.slot
    let reads : Page → Nat → Bool := fun p o => decide (p = u ∧ (o = 0x824 ∨ o = 0x828))
    ((unitAt x.c x.slot s).underTest = true →
      (x.phase = 1 → spareSt x.c x.spare s = 4 → ∀ pass, Answers (.stressPhaseComplete x.c x.slot pass) s (fun t =>
        t.stress = [{ x with phase := 2 }] ∧ sameRegs noReg s t ∧ sameMem s t)) ∧
      (x.phase = 2 → Answers (.stressPhaseComplete x.c x.slot true) s (fun t => t.stress = [{ x with phase := 3, rail := 2 }] ∧
        sameRegs reads s t ∧ sameMem s t)) ∧
      (x.phase = 3 → x.rail < 8 → Answers (.stressPhaseComplete x.c x.slot true) s (fun t => t.stress = [{ x with rail := x.rail + 2 }] ∧
        sameRegs reads s t ∧ sameMem s t)) ∧
      (x.phase = 3 → 8 ≤ x.rail → x.code ≠ 0 → Answers (.stressPhaseComplete x.c x.slot true) s (fun t => t.stress = [{ x with phase := 4 }] ∧
        rf u 0x818 2 0 t = x.code - 1 ∧ sameMem s t)) ∧
      (x.phase = 4 → rf u 0x818 2 0 s ≠ 0 → Answers (.stressPhaseComplete x.c x.slot true) s (fun t => t.stress = [x] ∧
        rf u 0x818 2 0 t = rf u 0x818 2 0 s - 1 ∧ sameMem s t)) ∧
      (x.phase = 4 → rf u 0x818 2 0 s = 0 → Answers (.stressPhaseComplete x.c x.slot true) s (fun t =>
        t.stress = [{ x with phase := 5, rail := 0 }] ∧ rf u 0x818 2 0 t = x.code ∧ sameMem s t))) ∧
    (x.phase = 5 → Answers (.stressPhaseComplete x.c x.slot true) s (fun t => t.stress = [] ∧ s.records.length < t.records.length ∧
      rf pgDie 0x224 15 0 t = satAdd 16 (rf pgDie 0x224 15 0 s) 1 ∧ rf pgDie 0x224 31 16 t = rf pgDie 0x224 31 16 s ∧ sameMem s t)) ∧
    (x.phase = 3 ∨ x.phase = 4 → s.suspects = [] → Answers (.stressPhaseComplete x.c x.slot false) s (fun t => t.stress = [] ∧
      (∃ e, t.suspects = [e] ∧ e.unit = ukey x.c x.slot ∧ e.rung = 1) ∧
      rf pgDie 0x224 15 0 t = satAdd 16 (rf pgDie 0x224 15 0 s) 1 ∧ rf pgDie 0x224 31 16 t = satAdd 16 (rf pgDie 0x224 31 16 s) 1 ∧
      s.records.length < t.records.length ∧ sameMem s t)) ∧
    (x.phase = 2 → Answers (.stressPhaseComplete x.c x.slot false) s (fun t => t.stress = [] ∧ rb u 0x804 0 t = true ∧
      rf pgDie 0x224 15 0 t = satAdd 16 (rf pgDie 0x224 15 0 s) 1 ∧ rf pgDie 0x224 31 16 t = satAdd 16 (rf pgDie 0x224 31 16 s) 1 ∧
      s.records.length < t.records.length ∧ sameMem s t)))

-- The double-wall pair (R533–R555) -------------------------------------------------------------------------------------------------

/-- Forming, heartbeats and takeover (R538, R546–R549, R553–R555): EN forms a pair with a role, records a write without one or on a locked page
(R744), and changes nothing where it is set; a heartbeat that agrees enters SYNC, one that does not is noted, one of another identity or of an OFF
member changes nothing; 350 µs without one is SUSPECT, a heartbeat restores the state, CONFIRM by the partner's bytes or LEAVING takes over: each
stream of the partner that a running slot binds is taken, every other one is held, TWN_TAKEOVER is raised and the member is ALONE; DENY splits; a
held stream is taken once its slot runs; the copy ends in PAIRED. -/
def Obligations.PairStates : Prop :=
  (∀ (q : Requester) (s : State),
    (twnOn s = false → locked pgTwn s = false →
      (twnRole s ≠ 0 → Answers (.pairEnable q) s (fun t => twnOn t = true ∧ twnState t = 1 ∧
        rf pgTwn 0x104 31 28 t = (if twnRangesOk s then 0 else 4) ∧ sameRegs (fun p o => decide (p = pgTwn ∧ (o = 0x100 ∨ o = 0x104))) s t ∧
        t.mem = s.mem)) ∧
      (twnRole s = 0 → Answers (.pairEnable q) s (fun t => twnOn t = false ∧ twnState t = twnState s ∧ rb pgTwn 0x010 errFIELD t = true ∧
        sameRegs noReg s t ∧ sameMem s t))) ∧
    (twnOn s = true → locked pgTwn s = false → Answers (.pairEnable q) s (fun t => t = s)) ∧
    (locked pgTwn s = true → Answers (.pairEnable q) s (fun t => rb pgTwn 0x010 errLOCKWR t = true ∧ t.twn = s.twn ∧ sameRegs noReg s t ∧
      sameMem s t))) ∧
  (∀ (s : State),
    let due := decide (1 ≤ twnState s ∧ twnState s ≤ 4 ∧ now s % (100 * usec) = (if twnRole s = 1 then 0 else 50 * usec))
    (due = true → s.twn.sentAt ≠ now s → Answers .heartSend s (fun t => t.twn.sentAt = now s ∧ sameRegs noReg s t ∧ t.mem = s.mem ∧
      (maySend 4 (nearFlit ftHeart 2 (slice (heartBody (twnState s) s) 0 608) s) s = true →
        (portAt 4 t).seqOut = ((portAt 4 s).seqOut + 1) % 4096 ∧ ∃ o, t.out.getLast? = some o ∧ o.kind = .flit ∧ o.args.take 2 = [4, ftHeart]))) ∧
    (due = false → Answers .heartSend s (fun t => t = s))) ∧
  (∀ (m : HeartMsg) (s : State), m.ident ≠ twnPartner s ∨ twnState s = 0 → Answers (.heart m) s (fun t => t = s)) ∧
  (∀ (m : HeartMsg) (s : State), m.ident = twnPartner s → m.state ≠ 0xFF →
    (twnState s = 1 → portUp 4 s = true → rd64 (pgRlp 4) 0x10C s = twnPartner s → rb pgSec 0x100 22 s = true → Answers (.heart m) s (fun t =>
      t.twn.heartAt = now s ∧ sameMem s t ∧
      (if formingErr m s = 0 then twnState t = 2 ∧ rf pgTwn 0x104 31 28 t = 0
       else twnState t = 1 ∧ rf pgTwn 0x104 31 28 t = formingErr m s))) ∧
    (twnState s = 4 → s.twn.back < 16 → Answers (.heart m) s (fun t => twnState t = s.twn.back ∧ t.twn.heartAt = now s ∧ t.mem = s.mem)) ∧
    (twnState s ≠ 0 → twnState s ≠ 1 → twnState s ≠ 4 → Answers (.heart m) s (fun t =>
      t.twn.heartAt = now s ∧ t.regs = s.regs ∧ t.strms = s.strms ∧ t.mem = s.mem))) ∧
  (∀ (s : State),
    ((twnState s = 2 ∨ twnState s = 3) → s.twn.heartAt + 350 * usec ≤ now s → Answers .heartTimeout s (fun t => twnState t = 4 ∧
      t.twn.back = twnState s ∧ t.records.length = s.records.length + 1 ∧ sameMem s t ∧
      rf (srcPage 89) (srcOff 0x900 89) 15 0 t = satAdd 16 (rf (srcPage 89) (srcOff 0x900 89) 15 0 s) 1)) ∧
    ((twnState s ≠ 2 ∧ twnState s ≠ 3) ∨ now s < s.twn.heartAt + 350 * usec → Answers .heartTimeout s (fun t => t = s))) ∧
  (∀ (s : State), (peerOpen s).Nodup →
    let tookOver (t : State) : Prop := twnState t = 6 ∧ t.twn.waits = [] ∧ t.twn.log = [] ∧ t.twn.entsNew = [] ∧ t.twn.slotsNew = [] ∧
      rd pgTwn 0x12C t = word t.twn.held.length ∧
      (∀ sid ∈ peerOpen s,
        (∀ n, boundSlot (SMap.get StreamEnt.free s.twn.ents sid).slot s = some n →
          (strmAt sid t).ent.taken = true ∧ (strmAt sid t).ent.slot = n ∧ sid ∉ t.twn.held) ∧
        (boundSlot (SMap.get StreamEnt.free s.twn.ents sid).slot s = none → sid ∈ t.twn.held)) ∧
      rf (srcPage 91) (srcOff 0x900 91) 15 0 t = satAdd 16 (rf (srcPage 91) (srcOff 0x900 91) 15 0 s) 1
    (∀ m : HeartMsg, m.ident = twnPartner s → m.state = 0xFF → twnState s = 3 ∨ twnState s = 4 → Answers (.heart m) s tookOver) ∧
    (∀ (q : Requester) (id : Nat), q ≠ .dzit → confirmOk id s = true → Answers (.confirm q id) s tookOver)) ∧
  (∀ (q : Requester) (id : Nat) (s : State), q ≠ .dzit →
    (confirmOk id s = true → Answers (.deny q id) s (fun t => twnState t = 7 ∧ t.twn.waits = [] ∧ t.strms = s.strms ∧ sameMem s t ∧
      rf (srcPage 90) (srcOff 0x900 90) 15 0 t = satAdd 16 (rf (srcPage 90) (srcOff 0x900 90) 15 0 s) 1)) ∧
    (confirmOk id s = false → Answers (.confirm q id) s (fun t => twnState t = twnState s ∧ rb pgTwn 0x010 errFIELD t = true ∧ sameRegs noReg s t ∧
        sameMem s t) ∧
      Answers (.deny q id) s (fun t => twnState t = twnState s ∧ rb pgTwn 0x010 errFIELD t = true ∧ sameRegs noReg s t ∧ sameMem s t))) ∧
  (∀ (sid n : Nat) (s : State), s.twn.held.contains sid = true → boundSlot (SMap.get StreamEnt.free s.twn.ents sid).slot s = some n →
    Answers (.heldStreamTake sid) s (fun t => sid ∉ t.twn.held ∧ (strmAt sid t).ent.taken = true ∧ (strmAt sid t).ent.slot = n ∧
      rd pgTwn 0x12C t = word (s.twn.held.filter (· ≠ sid)).length)) ∧
  (∀ (sid : Nat) (s : State), s.twn.held.contains sid = true → boundSlot (SMap.get StreamEnt.free s.twn.ents sid).slot s = none →
    Answers (.heldStreamTake sid) s (fun t => sid ∈ t.twn.held ∧ t.strms = s.strms ∧ sameRegs (oneReg pgTwn 0x12C) s t ∧ t.mem = s.mem)) ∧
  (∀ (sid : Nat) (s : State), s.twn.held.contains sid = false → Answers (.heldStreamTake sid) s (fun t => t = s)) ∧
  (∀ (s : State), (twnState s = 2 → Answers .syncComplete s (fun t => twnState t = 3 ∧ sameMem s t ∧
    t.twn.commitNo = s.twn.commitNo + (mirrorSlots s).length ∧
    rf (srcPage 92) (srcOff 0x900 92) 15 0 t = satAdd 16 (rf (srcPage 92) (srcOff 0x900 92) 15 0 s) 1)) ∧
    (twnState s ≠ 2 → Answers .syncComplete s (fun t => t = s)))

/-- Mirroring and commits (R533, R540, R542–R544, R551): a commit leaves once the floor has passed its step; what the partner mirrors waits for
its COMMIT, but for bytes, which are stored at once at their place in the mirror area; the ACK frees results up to its step; a handover waits
for the COMMIT before it. -/
def Obligations.PairMirror : Prop :=
  (∀ (slot k : Nat) (ks : List Nat) (s : State), (slotAt slot s).commits = k :: ks → twnState s = 3 ∨ twnState s = 4 → k < (slotAt slot s).floor →
    Answers (.commitSend slot) s (fun t => (slotAt slot t).commits = ks ∧ t.twn.commitNo = s.twn.commitNo + 1 ∧
      t.twn.waits = s.twn.waits ++ [(s.twn.commitNo + 1, slot, k)] ∧ sameRegs noReg s t ∧ t.mem = s.mem)) ∧
  (∀ (s : State), mirrors s = true →
    (∀ ents, Answers (.mirrorStream ents) s (fun t => t.twn.entsNew = s.twn.entsNew ++ ents ∧ t.regs = s.regs ∧ t.mem = s.mem)) ∧
    (∀ i : SlotItem, Answers (.mirrorSlot i) s (fun t => t.twn.slotsNew = s.twn.slotsNew ++ [(i.slot, i)] ∧ t.regs = s.regs ∧ t.mem = s.mem)) ∧
    (∀ msg, Answers (.mirrorResult msg) s (fun t => t.twn.log = s.twn.log ++ [(s.twn.inNo, msg)] ∧ t.regs = s.regs ∧ t.mem = s.mem)) ∧
    (∀ num step slot sid e, s.twn.entsNew = [(sid, e)] → Answers (.mirrorCommit num step slot) s (fun t =>
      SMap.get StreamEnt.free t.twn.ents sid = e ∧ (∀ i, i ≠ sid → SMap.get StreamEnt.free t.twn.ents i = SMap.get StreamEnt.free s.twn.ents i) ∧
      t.twn.entsNew = [] ∧ t.twn.slotsNew = [] ∧ t.twn.inNo = num ∧ t.twn.ackDue = s.twn.ackDue ++ [num] ∧ t.regs = s.regs ∧ t.mem = s.mem)) ∧
    (∀ src data, s.twn.psrc ≤ src → src + data.length ≤ s.twn.psrc + twnLen s → twnMir s + twnLen s ≤ mapTop →
      Answers (.mirrorWrite src data) s (fun t => memRead (twnMir s + (src - s.twn.psrc)) data.length t = data ∧
        ∀ a, a < twnMir s + (src - s.twn.psrc) ∨ twnMir s + (src - s.twn.psrc) + data.length ≤ a → memByte a t = memByte a s)) ∧
    (∀ sids, s.twn.ackDue ≠ [] → Answers (.mirrorHandoff sids) s (fun t => t.twn.handed = s.twn.handed ++ sids ∧ t.regs = s.regs ∧
      t.mem = s.mem))) ∧
  (∀ (s : State), mirrors s = false → (∀ ents, Answers (.mirrorStream ents) s (fun t => t = s)) ∧
    ∀ src data, Answers (.mirrorWrite src data) s (fun t => t = s)) ∧
  (∀ (no : Nat) (rest : List Nat) (s : State), s.twn.ackDue = no :: rest → s.twn.handed = [] → rangeFenced (twnMir s) (twnLen s) s = false →
    Answers .commitAckSend s (fun t => t.twn.ackDue = rest ∧ t.twn.ackSent = no ∧ t.twn.log = s.twn.log.filter (fun e => no ≤ e.1 + 2) ∧
      sameRegs noReg s t ∧ t.mem = s.mem)) ∧
  (∀ (num : Nat) (w : Nat × Nat × Nat) (s : State), s.twn.waits = [w] → w.1 ≤ num → Answers (.mirrorAck num) s (fun t => t.twn.waits = [] ∧
    rd pgTwn 0x124 t = word num ∧ (slotAt w.2.1 t).covered = max (slotAt w.2.1 s).covered (w.2.2 + 1) ∧ sameRegs (oneReg pgTwn 0x124) s t ∧
    t.mem = s.mem))

-- The Dzit link and the host (R556–R587) -----------------------------------------------------------------------------------------------

/-- Frames, slots and training of the Dzit link (R557–R564, R584, R585, R587, R758): a frame's mark leaves every microsecond with its number, and a
message that holds its credits goes with it; the receiver is locked after two marks 1.000 µs apart that show SYNC, at most 8 bits from the pattern
on each lane; an uncorrectable slot is answered with NAK, one in sequence moves the number on, a message
of a reserved OP is answered BADMSG (R574, R581; that it is so in the order of its first slot is the model's choice, log entry 118), one without
credits is counted and raised; training ends UP, DEGRADED or DOWN by the lanes, with numbers and credits as at the start. -/
def Obligations.DzitLink : Prop :=
  (∀ (s : State), dzState s ≠ 0 → inService s = false → s.dz.frameAt = none → s.dz.sent = [] → s.dz.cur = none → s.dz.back = [] →
    (s.dz.txq = [] → Answers .frameSend s (fun t => t.dz.frame = (s.dz.frame + 1) % 2 ^ 32 ∧ t.dz.frameAt = some (now s) ∧ t.regs = s.regs ∧
      t.mem = s.mem ∧ t.out = s.out ++ [{
        kind := .dzitFrame, args := [s.dz.frame, if dzCompat s then 0 else now s, rf pgDzt 0x104 12 4 s], blks := []
        bytes := sofBytes (rf pgDzt 0x104 12 4 s) s.dz.frame (if dzCompat s then 0 else now s) }])) ∧
    (∀ m : DMsg, s.dz.txq = [m] → dzUp s = true → msgSlots m.body.length = 1 → 1 ≤ SMap.get 0 s.dz.cred m.cls → Answers .frameSend s (fun t =>
      t.dz.txq = [] ∧ SMap.get 0 t.dz.cred m.cls = SMap.get 0 s.dz.cred m.cls - 1 ∧
      (∃ o ∈ t.out, o.kind = .dzitMsg ∧ ∃ cred, o.bytes = slice (m.bytes cred) 0 640) ∧ sameRegs noReg s t ∧ t.mem = s.mem))) ∧
  (∀ (inTol : Bool) (marks : List Nat) (s : State), dzState s ≠ 0 → Answers (.sofMark inTol marks) s (fun t =>
    (rb pgDzt 0x104 13 t = true ↔ marks ≠ [] ∧ (∀ m ∈ marks, bitsApart 240 m syncBits ≤ 8) ∧ inTol = true ∧ s.dz.synced = true) ∧
    (t.dz.synced = true ↔ marks ≠ [] ∧ ∀ m ∈ marks, bitsApart 240 m syncBits ≤ 8) ∧ dzState t = dzState s ∧ sameRegs (fun p o => decide ((p = pgDzt ∨ p = pgClk) ∧ o = 0x104)) s t ∧ t.mem = s.mem)) ∧
  (∀ (d : DzSlot) (s : State), dzUp s = true →
    (d.uncorr = true → Answers (.dzitSlot d) s (fun t => rf pgDzt 0x10C 31 0 t = satAdd 32 (rf pgDzt 0x10C 31 0 s) 1 ∧ t.dz = s.dz ∧
      t.out = s.out ++ [{ kind := .codeword, args := [13, s.dz.seqIn, 2], blks := [], bytes := [] }] ∧ sameRegs (oneReg pgDzt 0x10C) s t ∧
      t.mem = s.mem)) ∧
    (d.uncorr = false → d.corrected = 0 → d.ackkind = 0 → d.lseq % 4096 = s.dz.seqIn →
      (d.first = false → Answers (.dzitSlot d) s (fun t => t.dz.seqIn = (s.dz.seqIn + 1) % 4096 ∧ t.dz.rxLeft = s.dz.rxLeft - 1 ∧
        sameRegs noReg s t ∧ t.mem = s.mem)) ∧
      (d.first = true → d.crcOk = true → 1 ≤ d.cls → d.cls ≤ 7 → d.slots ≤ SMap.get 0 s.dz.host d.cls → Answers (.dzitSlot d) s (fun t =>
        t.dz.seqIn = (s.dz.seqIn + 1) % 4096 ∧ SMap.get 0 t.dz.host d.cls = SMap.get 0 s.dz.host d.cls - d.slots ∧ t.dz.rxLeft = d.slots - 1 ∧
        (opKnown d.cls d.op = true → sameRegs noReg s t) ∧ t.mem = s.mem ∧
        (opKnown d.cls d.op = false → d.cls = 1 → t.dz.txq = s.dz.txq ++
          [{ cls := 1, op := 128 + d.op % 128, status := stBADMSG, sid := 0, seq := d.seq, body := [] }]))) ∧
      (d.first = true → d.crcOk = true → 1 ≤ d.cls → d.cls ≤ 7 → SMap.get 0 s.dz.host d.cls < d.slots → Answers (.dzitSlot d) s (fun t =>
        t.dz.host = s.dz.host ∧ rf pgDzt 0x118 31 0 t = satAdd 32 (rf pgDzt 0x118 31 0 s) 1 ∧
        rf (srcPage 94) (srcOff 0x900 94) 15 0 t = satAdd 16 (rf (srcPage 94) (srcOff 0x900 94) 15 0 s) 1 ∧
        sameRegs (oneReg pgDzt 0x118) s t ∧ t.mem = s.mem)))) ∧
  (∀ (good : List Nat) (s : State), dzState s = 1 → rf pgDzt 0x100 2 1 s = 0 →
    let n := ((List.range 9).filter (fun i => good.contains i)).length
    Answers (.dzitTrainComplete good false) s (fun t => sameMem s t ∧
      dzState t = (if 8 ≤ n then 2 else if 4 ≤ n then 3 else 0) ∧
      (4 ≤ n → t.dz.seqOut = 0 ∧ t.dz.seqIn = 0 ∧ t.dz.sent = [] ∧ t.dz.back = dzGrants ∧ dzCompat t = false))) ∧
  (∀ (q : Requester) (s : State), q ≠ .mgmt →
    (rb pgDzt 0x100 0 s = true → Answers (.dzitRetrain q) s (fun t => dzState t = 1 ∧ rb pgDzt 0x100 3 t = false ∧ t.mem = s.mem)) ∧
    (rb pgDzt 0x100 0 s = false → Answers (.dzitRetrain q) s (fun t => dzState t = dzState s ∧ sameRegs (oneReg pgDzt 0x100) s t ∧ t.mem = s.mem)))

/-- Messages of the host (R566–R582, R584): each request is answered by a message that waits to leave with its status, BADMSG where its form is
wrong (R581), and has its effect where that is OK: register access, OPEN and CLOSE of a stream, submits in sequence, bytes into stack memory, attestation. Results and events leave in
order while the device holds their credits. -/
def Obligations.HostMessages : Prop :=
  ∀ (h : DHdr) (s : State),
    let answered (cls op st sid : Nat) (body : List Byte) (s t : State) : Prop :=
      t.dz.txq = s.dz.txq ++ [{ cls := cls, op := op, status := st, sid := sid, seq := h.seq, body := body }]
    (∀ ra count, regReqOk ra count = false ∨ h.ok = false → Answers (.regRead h ra count) s (fun t => answered 1 0x81 stBADMSG 0 [] s t ∧
      t.regs = s.regs ∧ t.mem = s.mem)) ∧
    (h.ok = false → ∀ ra ws, Answers (.regWrite h ra ws) s (fun t => answered 1 0x82 stBADMSG 0 [] s t ∧ t.regs = s.regs ∧ t.mem = s.mem)) ∧
    (∀ ra w s1, h.ok = true → regReqOk ra 1 = true → regGet .dzit ra s = (stOK, w, s1) → Answers (.regRead h ra 1) s (fun t =>
      answered 1 0x81 stOK 0 (leBytes 4 1 ++ leBytes 4 w.toNat) s1 t ∧ t.regs = s1.regs ∧ t.mem = s1.mem)) ∧
    (∀ ra v st s1, h.ok = true → regReqOk ra 1 = true → regPut .dzit ra v s = (st, s1) → Answers (.regWrite h ra [v]) s (fun t =>
      answered 1 0x82 st 0 (leBytes 4 (if st = stOK then 1 else 0)) s1 t ∧ t.regs = s1.regs ∧ t.mem = s1.mem)) ∧
    (s.sresp = [] →
      (∀ b : OpenBody, let st := if h.ok then openStatus h.sid b s else stBADMSG
        Answers (.open h b) s (fun t => answered 2 0x81 st h.sid [] s t ∧
        (if st = stOK then (strmAt h.sid t).ent = openEntry b ∧ (strmAt h.sid t).queue = []
         else t.strms = s.strms ∧ t.mem = s.mem))) ∧
      (h.ok = false → Answers (.close h) s (fun t => answered 2 0x82 stBADMSG h.sid [] s t ∧ t.strms = s.strms ∧ t.mem = s.mem)) ∧
      (h.ok = true → (strmAt h.sid s).ent.state = 0 → Answers (.close h) s (fun t => answered 2 0x82 stNOSTREAM h.sid [] s t ∧ t.strms = s.strms ∧
        t.mem = s.mem)) ∧
      (h.ok = true → (strmAt h.sid s).ent.state = 1 → (strmAt h.sid s).queue = [] → Answers (.close h) s (fun t => (strmAt h.sid t).ent.state = 2 ∧
        t.dz.txq = s.dz.txq ∧ t.sresp.length = 1))) ∧
    (∀ sid, (strmAt sid s).ent.state = 2 → (strmAt sid s).placed = [] → (strmAt sid s).old = [] → s.results = [] → s.sresp = [] →
      Answers (.closeComplete sid) s (fun t =>
      strmAt sid t = Strm.free)) ∧
    (h.ok = true → submitStatus h s = stOK → (slotAt (strmAt h.sid s).ent.slot s).entries = 0 →
      let queued (op index deadline slots : Nat) (elems : List Word) (t : State) : Prop :=
        (strmAt h.sid t).queue = (strmAt h.sid s).queue ++
          [{ seq := h.seq, op := op, index := index, elems := elems, deadline := deadline, arrival := s.arrNo, slots := slots }] ∧
        (strmAt h.sid t).ent.seqin = ((strmAt h.sid s).ent.seqin + 1) % 2 ^ 32 ∧ t.arrNo = s.arrNo + 1 ∧ t.dz.txq = s.dz.txq
      (∀ deadline index, Answers (.token h deadline index true) s (queued 1 index deadline (msgSlots 16) [])) ∧
      ((strmAt h.sid s).prevVec = false → ∀ deadline, Answers (.next h deadline true) s (queued 3 0 deadline (msgSlots 8) [])) ∧
      (∀ deadline n elems, n % 32 = 0 → 32 ≤ n → n ≤ 8192 → elems.length = n → 64 + n / 32 * 34 ≤ (ioArea (strmAt h.sid s).ent.slot 0 s).2 →
        elems.all (fun v => (edgeVal (strmAt h.sid s).ent.fmtIn (strmAt h.sid s).ent.int8exp v.toNat).isSome) = true →
        Answers (.vector h deadline n true elems) s (queued 2 n deadline (msgSlots (16 + n * edgeWidth (strmAt h.sid s).ent.fmtIn)) elems))) ∧
    (let st := if h.ok then submitStatus h s else stBADMSG
     st ≠ stOK →
      let refused (t : State) : Prop := answered 4 0 st h.sid [] s t ∧ t.strms = s.strms ∧ t.mem = s.mem ∧
        rf pgStrm 0x12C 31 0 t = satAdd 32 (rf pgStrm 0x12C 31 0 s) 1
      (∀ deadline index ok, Answers (.token h deadline index ok) s refused) ∧ (∀ deadline ok, Answers (.next h deadline ok) s refused) ∧
      ∀ deadline n ok elems, Answers (.vector h deadline n ok elems) s refused) ∧
    (∀ sid u, (strmAt sid s).queue = [u] → u.deadline ≠ 0 → u.deadline ≤ now s → s.results = [] →
      (slotAt (strmAt sid s).ent.slot s).entries = 0 → Answers (.submitDeadline sid u.seq) s (fun t => (strmAt sid t).queue = [] ∧
        (∃ r, t.results = [r] ∧ r.sid = sid ∧ r.seq = u.seq ∧ r.op = 0 ∧ r.status = stDEADLINE) ∧
        rf pgStrm 0x128 31 0 t = satAdd 32 (rf pgStrm 0x128 31 0 s) 1)) ∧
    (∀ addr ok data, let st := putStatus addr (ok && h.ok) data s
      (st = stOK → Answers (.put h addr ok data) s (fun t => answered 5 0x81 stOK 0 [] s t ∧ memRead addr data.length t = data ∧
        ∀ a, a < addr ∨ addr + data.length ≤ a → memByte a t = memByte a s)) ∧
      (st ≠ stOK → Answers (.put h addr ok data) s (fun t => answered 5 0x81 st 0 [] s t ∧
        t.regs = s.regs ∧ t.mem = s.mem))) ∧
    (∀ nonce : List Byte, nonce.length ≠ 32 ∨ h.ok = false → Answers (.attestRequest h nonce) s (fun t => t.regs = s.regs ∧ t.mem = s.mem ∧
      answered 7 0x81 stBADMSG 0 [] s t)) ∧
    (∀ nonce : List Byte, nonce.length = 32 → h.ok = true → Answers (.attestRequest h nonce) s (fun t => t.regs = s.regs ∧ t.mem = s.mem ∧
      answered 7 0x81 (if (attestReport nonce s).isSome then stOK else stDENIED) 0 ((attestReport nonce s).getD []) s t)) ∧
    (∀ slot step b rest, (slotAt slot s).exiting = (step, b) :: rest → step < (slotAt slot s).floor → rgnOpen slot step s = false → inService s = false →
      Answers (.resultFormation slot) s (fun t => (slotAt slot t).exiting = rest ∧
        ∀ e ∈ b.tokens, ∃ r ∈ t.results, r.sid = e.2.1 ∧ r.seq = e.2.2)) ∧
    (∀ sid r, nextResult sid s = some r → inService s = false → heldByCommit r s = false → exitsBefore r s = false → msgSlots r.body.length ≤ creditsLeft 4 s →
      Answers (.resultSend sid) s (fun t => t.results = s.results.erase r ∧
        t.dz.txq = s.dz.txq ++ [{ cls := 4, op := r.op, status := r.status, sid := r.sid, seq := r.seq, body := r.body }] ∧
        (r.freed = false → (strmAt sid t).ent.seqout = ((strmAt sid s).ent.seqout + 1) % 2 ^ 32))) ∧
    (∀ op body rest, s.events = (op, body) :: rest → inService s = false → msgSlots body.length ≤ creditsLeft 6 s → Answers .eventSend s (fun t =>
      t.events = rest ∧ t.dz.txq = s.dz.txq ++ [{ cls := 6, op := op, status := 0, sid := 0, seq := 0, body := body }] ∧ t.regs = s.regs ∧
      t.mem = s.mem))

-- Clock, power and temperature (R240–R243, R590–R637) ----------------------------------------------------------------------------------

/-- Reference, Damper, regulators and throttling (R240, R241, R243, R596, R607, R611, R614, R618, R621, R630): lock, holdover and marks move the
reference state; a request within the slew, the ceiling and the limit is granted and its charge counts, and charge given back is released at
the slew; the target is kept within its limits and the regulator moves a code at a time, a step up once its charge is granted; qmax follows the
supply; a zone too hot raises its region's level. -/
def Obligations.PowerAndClock : Prop :=
  (∀ (s : State), Answers .refLock s (fun t => rf pgClk 0x100 2 0 t = 0 ∧ rb pgClk 0x100 3 t = true ∧ t.mem = s.mem)) ∧
  (∀ (s : State), Answers .refHoldover s (fun t => rb pgClk 0x100 3 t = false ∧
    rf pgClk 0x100 2 0 t = (if rf pgClk 0x100 2 0 s = 0 then 1 else rf pgClk 0x100 2 0 s) ∧ t.mem = s.mem)) ∧
  (∀ (s : State), dzState s = 2 → dzCompat s = false → rb pgDzt 0x104 13 s = true → rf pgClk 0x100 2 0 s = 3 → Answers .refMarks s (fun t =>
    rf pgClk 0x100 2 0 t = 2 ∧ rf pgClk 0x110 31 0 t = satAdd 32 (rf pgClk 0x110 31 0 s) 1 ∧ t.mem = s.mem ∧
    rf (srcPage 95) (srcOff 0x900 95) 15 0 t = satAdd 16 (rf (srcPage 95) (srcOff 0x900 95) 15 0 s) 1)) ∧
  (∀ (s : State), s.enabled = true → s.boot.waiting = false → inService s = false → s.boot.rows < 8 →
    s.boot.rows = 0 ∨ s.boot.rowAt + 2500 * usec ≤ now s → Answers .regionPowerStage s (fun t => t.boot.rows = s.boot.rows + 1 ∧
      (∀ i, i < 8 → (rgnAt (8 * s.boot.rows + i) t).off = false) ∧ t.regs = s.regs ∧ t.mem = s.mem)) ∧
  (∀ (r : Nat) (x : Region) (a : DReq) (s : State), r < 64 → s.rgns = [(r, x)] → x.asks = [a] → x.relq = [] → a.got < a.whole →
    s.dampAt ≠ some (now s) → inService s = false → tripped s = false →
    let need := a.whole - a.got
    x.charge + need ≤ rgnCeil r s → need ≤ rf pgPwr 0x100 7 0 s * (amp / 100) → x.charge + need ≤ s.qmax →
    Answers .damperPeriod s (fun t => (rgnAt r t).asks = [] ∧ (rgnAt r t).charge = x.charge + need ∧ t.dampAt = some (now s) ∧ t.mem = s.mem)) ∧
  (∀ (r q : Nat) (x : Region) (s : State), r < 64 → s.rgns = [(r, x)] → x.asks = [] → x.relq = [q] → 0 < q → q ≤ x.charge → x.charge ≤ s.qmax →
    q ≤ rf pgPwr 0x100 7 0 s * (amp / 100) → s.dampAt ≠ some (now s) → inService s = false → tripped s = false →
    Answers .damperPeriod s (fun t => (rgnAt r t).relq = [] ∧ (rgnAt r t).charge = x.charge - q ∧ t.mem = s.mem)) ∧
  (∀ (q : Requester) (r : Nat) (v : Word) (s : State), r < 64 → q ≠ .mgmt → pageOff (pgIvr r) s = false → locked (pgIvr r) s = false → Answers (.ivrOfsWrite q r v) s (fun t =>
    let lo := sx 6 (getF v 21 16)
    let hi := sx 6 (getF v 13 8)
    sameMem s t ∧
    (if -16 ≤ lo ∧ hi ≤ 16 ∧ lo ≤ hi then rf (pgIvr r) 0x100 21 16 t = getF v 21 16 ∧ rf (pgIvr r) 0x100 13 8 t = getF v 13 8 ∧
        sx 6 (rf (pgIvr r) 0x100 5 0 t) = clampI lo hi (sx 6 (getF v 5 0))
     else rf (pgIvr r) 0x100 21 16 t = rf (pgIvr r) 0x100 21 16 s ∧ rf (pgIvr r) 0x100 13 8 t = rf (pgIvr r) 0x100 13 8 s ∧
        rb (pgIvr r) 0x010 errFIELD t = true))) ∧
  (∀ (r : Nat) (s : State), r < 64 →
    let goal := sx 6 (rf (pgIvr r) 0x100 5 0 s)
    let cur := sx 6 (rf (pgIvr r) 0x104 5 0 s)
    (goal < cur → Answers (.ivrStep r) s (fun t => sx 6 (rf (pgIvr r) 0x104 5 0 t) = cur - 1 ∧ sameRegs (oneReg (pgIvr r) 0x104) s t ∧
      t.mem = s.mem)) ∧
    (cur < goal → (rgnAt r s).ivrGrant = true → Answers (.ivrStep r) s (fun t => sx 6 (rf (pgIvr r) 0x104 5 0 t) = cur + 1 ∧
      (rgnAt r t).ivrGrant = false ∧ sameRegs (oneReg (pgIvr r) 0x104) s t ∧ t.mem = s.mem)) ∧
    (cur < goal → (rgnAt r s).ivrGrant = false → 100 ≤ (rgnAt r s).charge → (rgnAt r s).asks = [] → Answers (.ivrStep r) s (fun t =>
      (rgnAt r t).asks = [{ who := .regulator, whole := (rgnAt r s).charge / 100, got := 0 }] ∧ t.regs = s.regs ∧ t.mem = s.mem)) ∧
    (goal = cur → Answers (.ivrStep r) s (fun t => t = s))) ∧
  (∀ (pOther vdd coreA power : Nat) (s : State), 0 < vdd → Answers (.qmaxRecompute pOther vdd coreA power) s (fun t =>
    t.qmax = (rf pgPwr 0x104 15 0 s - pOther) * 1000000000 / vdd ∧ rf pgPwr 0x10C 15 0 t = min coreA 65535 ∧
    rf pgPwr 0x10C 31 16 t = min power 65535 ∧ rf pgPwr 0x114 25 16 t = min vdd 1023 ∧ sameMem s t)) ∧
  (∀ (r : Nat) (s : State), r < 64 → (rgnAt r s).fenced = false → (rgnAt r s).off = false → (rgnAt r s).level < 4 → (rgnAt r s).hot = none →
    (∃ z, z < 8 ∧ 16 * rf pgPwr 0x118 7 0 s < zoneTemp r z s) → Answers (.throttleTimer r) s (fun t => (rgnAt r t).level = (rgnAt r s).level + 1 ∧
      rf pgPwr 0x148 31 0 t = satAdd 32 (rf pgPwr 0x148 31 0 s) 1 ∧ sameRegs (oneReg pgPwr 0x148) s t ∧ t.mem = s.mem))

/-- The sense converters (R638, R639, R643, R644, R646, R648–R650, R652): a thermal slot converts the next diode, to the code of the voltage and the
zone's temperature; an entry with the test switch closed converts the test DAC, to a code within the gain's error; a droop, a temperature or a storm
beyond its threshold triggers; a trigger that is enabled starts a run, or makes one due during a run; START starts the programmable sequence or is
ignored; a read of the queue takes its oldest result. -/
def Obligations.SenseConverters : Prop :=
  (∀ (r uv temp : Nat) (s : State), r < 64 → (rgnAt r s).fenced = false → (rgnAt r s).off = false → inService s = false →
    rb (pgSns r) 0x104 1 s = false → (rgnAt r s).sns.slotNo % 5 = 4 → (rgnAt r s).sns.diode < 8 → Answers (.snsConversion r uv temp) s (fun t =>
      let d := (rgnAt r s).sns.diode
      rf (pgSns r) (0x200 + 4 * d) 11 0 t = (clampI 0 4095 (rneDiv ((uv * 4096 : Nat) : Int) 1200000)).toNat ∧
      rf (pgTrm r) (0x110 + 4 * d) 11 0 t = min temp 4095 ∧ (rgnAt r t).sns.diode = (d + 1) % 8 ∧ sameMem s t)) ∧
  (∀ (r uv temp : Nat) (s : State), r < 64 → (rgnAt r s).fenced = false → (rgnAt r s).off = false → inService s = false → tripped s = false →
    rb (pgSns r) 0x100 0 s = true → rb (pgSns r) 0x104 1 s = true → rb (pgSns r) 0x104 2 s = true → rb (pgSns r) 0x104 3 s = false →
    (rgnAt r s).sns.slotNo % 2 = 0 → (rgnAt r s).sns.progPos < 16 → (rgnAt r s).sns.dac < 1024 →
    let w := rd (pgSns r) (0x180 + 4 * (rgnAt r s).sns.progPos) s
    getB w 10 = true → minSts (getF w 4 0) ≤ getF w 7 5 → Answers (.snsConversion r uv temp) s (fun t =>
      let code := rf (pgSns r) (0x200 + 4 * getF w 4 0) 11 0 t
      let ideal := min 4095 (4 * (rgnAt r s).sns.dac * 2 ^ getF w 9 8)
      code ≤ ideal + snsErr (getF w 9 8) ∧ ideal ≤ code + snsErr (getF w 9 8) ∧ (rgnAt r t).sns.dac = rf (pgSns r) 0x1C0 9 0 s ∧ sameMem s t)) ∧
  (∀ (r : Nat) (s : State), r < 64 → (rgnAt r s).fenced = false → (rgnAt r s).off = false → inService s = false → tripped s = false →
    let run (b : Nat) (t : State) : Prop := t.mem = s.mem ∧ sameRegs noReg s t ∧
      (if rb (pgSns r) 0x10C b s = false then t = s
       else if rb (pgSns r) 0x104 3 s ∧ (rgnAt r s).sns.injAt = now s ∧ (rgnAt r s).sns.injPos = 0 then t.regs = s.regs ∧
         (rgnAt r t).sns.cause = Nat.lor (rgnAt r s).sns.cause (2 ^ b)
       else if rb (pgSns r) 0x104 3 s then rb (pgSns r) 0x104 4 t = true ∧ rb (pgSns r) 0x110 (4 + b) t = true ∧ t.rgns = s.rgns
       else rb (pgSns r) 0x104 3 t = true ∧ (rgnAt r t).sns.cause = 2 ^ b ∧ (rgnAt r t).sns.injPos = 0)
    (∀ uv ns : Nat,
      let low := (uv : Int) + 1000 * rf (pgSns r) 0x10C 15 8 s < 1000 * (rf pgPwr 0x114 9 0 s : Int) + 2500 * sx 6 (rf (pgIvr r) 0x104 5 0 s)
      (low → 20 ≤ ns → Answers (.droopTrigger r uv ns) s (run 0)) ∧ (¬ low ∨ ns < 20 → Answers (.droopTrigger r uv ns) s (fun t => t = s))) ∧
    (∀ temp16, (16 * rf (pgSns r) 0x10C 31 24 s < temp16 → Answers (.thermalTrigger r temp16) s (run 1)) ∧
      (temp16 ≤ 16 * rf (pgSns r) 0x10C 31 24 s → Answers (.thermalTrigger r temp16) s (fun t => t = s))) ∧
    ((rgnAt r s).storm = [] → 0 < rf (pgSns r) 0x10C 23 16 s → Answers (.stormTrigger r) s (fun t => t = s)) ∧
    (rf (pgSns r) 0x10C 23 16 s ≤ ((rgnAt r s).storm.filter (fun t => now s ≤ t + 10 * usec)).length → Answers (.stormTrigger r) s (run 2)) ∧
    ∀ q : Requester, q ≠ .mgmt → Answers (.swtrig q r) s (run 3) ∧
      (rb (pgSns r) 0x104 1 s = true → rb (pgSns r) 0x104 2 s = false → Answers (.snsStart q r) s (fun t => rb (pgSns r) 0x104 2 t = true ∧
        (rgnAt r t).sns.progPos = 0 ∧ t.mem = s.mem)) ∧
      (rb (pgSns r) 0x104 1 s = false ∨ rb (pgSns r) 0x104 2 s = true → Answers (.snsStart q r) s (fun t =>
        rb (pgSns r) 0x010 errOPIGN t = true ∧ rb (pgSns r) 0x104 2 t = rb (pgSns r) 0x104 2 s ∧ sameRegs noReg s t ∧ sameMem s t))) ∧
  (∀ (q : Requester) (r : Nat) (e : SnsRes) (l : List SnsRes) (s : State), pageOff (pgSns r) s = false → (rgnAt r s).sns.queue = e :: l →
    e.src < 4 → e.code < 4096 → Answers (.snsResClaim q r) s (fun t => (rgnAt r t).sns.queue = l ∧ t.regs = s.regs ∧ t.mem = s.mem ∧
      ∃ v : Word, t.out = s.out ++ [{ kind := .regValue, args := [reqNo q, stOK, v.toNat], blks := [], bytes := [] }] ∧ getB v 31 = true ∧
        getF v 30 29 = e.src ∧ getF v 28 24 = e.entry % 32 ∧ getB v 23 = e.nosrc ∧ getF v 22 21 = e.gain % 4 ∧ getF v 16 12 = e.ch % 32 ∧
        getF v 11 0 = e.code)) ∧
  (∀ (q : Requester) (r : Nat) (s : State), pageOff (pgSns r) s = false → (rgnAt r s).sns.queue = [] → Answers (.snsResClaim q r) s (fun t =>
    t = say .regValue [reqNo q, stOK, 0] s))

-- Whistle and the event counters (R665–R684) -----------------------------------------------------------------------------------------------

/-- Whistle and the counters' snapshots (R669, R670, R673–R676, R682): a timer expires in its time; a claim takes the claimable source with its
priority and accumulator and leaves it ACTIVE and empty; a completion returns it, and one of no ACTIVE source is counted; a set-pending makes
an IDLE source PENDING; TARGET and PRIO stay while a source is not IDLE; the device claims for the host; a snapshot is armed, or merged, and at
its time copies every counter. -/
def Obligations.WhistleAndCounters : Prop :=
  (∀ (n : Nat) (s : State), n < 2048 → rb (srcPage n) (srcOff 0x900 n) 29 s = true → SMap.get 0 s.whiDue n ≤ now s →
    Answers (.coalesceTimer n) s (fun t => rb (srcPage n) (srcOff 0x900 n) 29 t = false ∧ rb (srcPage n) (srcOff 0x900 n) 28 t = true ∧
      srcAcc n t = srcAcc n s ∧ sameRegs noReg s t ∧ t.mem = s.mem)) ∧
  (∀ (q : Requester) (tgt n : Nat) (s : State), claimable tgt s = some n → n ≠ 99 → Answers (.whiClaim q tgt) s (fun t =>
    srcState n t = 2 ∧ srcAcc n t = 0 ∧ sameRegs noReg s t ∧ t.mem = s.mem ∧ t.out = s.out ++ [{
      kind := .regValue, blks := [], bytes := []
      args := [reqNo q, stOK, 2 ^ 31 + srcPrio n s * 2 ^ 28 + srcAcc n s * 2 ^ 12 + n] }])) ∧
  (∀ (q : Requester) (tgt : Nat) (s : State), claimable tgt s = none → Answers (.whiClaim q tgt) s (fun t => t = say .regValue [reqNo q, stOK, 0] s)) ∧
  (∀ (n : Nat) (s : State), claimable 4 s = some n → n ≠ 99 → inService s = false → s.events.length < 4096 → Answers (.deviceClaim 4) s (fun t =>
    srcState n t = 2 ∧ t.events = s.events ++ [(1, leBytes 2 n ++ leBytes 2 (srcAcc n s))] ∧ sameRegs noReg s t ∧ t.mem = s.mem)) ∧
  (∀ (n : Nat) (s : State), claimable 5 s = some n → n ≠ 99 → inService s = false → Answers (.deviceClaim 5) s (fun t => srcState n t = 2 ∧
    { kind := .mgmt, args := [1, n, srcAcc n s], blks := [], bytes := [] } ∈ t.out ∧ sameRegs noReg s t ∧ t.mem = s.mem)) ∧
  (∀ (q : Requester) (tgt n : Nat) (s : State), q ≠ .mgmt → tgt ≤ 6 → n < 2048 →
    (srcState n s = 2 → srcTarget n s = tgt → Answers (.whiComplete q tgt n) s (fun t =>
      srcState n t = (if rb pgWhi 0x100 0 s && srcReady n s then 1 else 0) ∧ rd pgWhi 0x108 t = rd pgWhi 0x108 s ∧ t.mem = s.mem)) ∧
    (srcState n s ≠ 2 ∨ srcTarget n s ≠ tgt → n ≠ 99 → Answers (.whiComplete q tgt n) s (fun t => srcState n t = srcState n s ∧
      rf pgWhi 0x108 31 0 t = satAdd 32 (rf pgWhi 0x108 31 0 s) 1 ∧ sameRegs (oneReg pgWhi 0x108) s t ∧ t.mem = s.mem))) ∧
  (∀ (q : Requester) (n : Nat) (s : State), q ≠ .mgmt → n < 2048 →
    Answers (.whiSetpend q n) s (fun t => srcAcc n t = satAdd 16 (srcAcc n s) 1 ∧ sameRegs noReg s t ∧ t.mem = s.mem ∧
      (srcState n s = 0 → srcState n t = (if rb pgWhi 0x100 0 s then 1 else 0)) ∧ (srcState n s ≠ 0 → srcState n t = srcState n s)) ∧
    (locked pgWhi s = false → Answers (.whiEnable q) s (fun t => rb pgWhi 0x100 0 t = true ∧ sameRegs (oneReg pgWhi 0x100) s t ∧ t.mem = s.mem)) ∧
    (∀ v : Word, locked (srcPage n) s = false →
      (srcState n s ≠ 0 → Answers (.whiCfgWrite q n v) s (fun t => srcTarget n t = srcTarget n s ∧ srcPrio n t = srcPrio n s ∧
        srcState n t = srcState n s ∧ sameMem s t)) ∧
      (srcState n s = 0 → getF v 19 16 < 7 → 1 ≤ getF v 7 0 → Answers (.whiCfgWrite q n v) s (fun t => srcTarget n t = getF v 19 16 ∧
        srcPrio n t = getF v 26 24 ∧ rf (srcPage n) (srcOff 0x100 n) 7 0 t = getF v 7 0 ∧ sameMem s t)))) ∧
  (∀ (q : Requester) (s : State), Answers (.cntSnapcmd q) s (fun t => t.snapAt = some (s.snapAt.getD (now s + 100)) ∧ t.regs = s.regs ∧
    t.mem = s.mem)) ∧
  (∀ (s : State), now s % epochLen = 0 → rb pgCnt 0x100 0 s = true → rd64 pgCnt 0x10C s ≠ now s → Answers .epochSnapshot s (fun t =>
    (∀ i, i < 32 → rd64 pgCnt (0x300 + 8 * i) t % 2 ^ 48 = rd64 pgCnt (0x200 + 8 * i) s % 2 ^ 48) ∧ rd64 pgCnt 0x10C t = now s ∧ t.mem = s.mem)) ∧
  (∀ (at_ : Nat) (s : State), s.snapAt = some at_ → at_ ≤ now s → rd64 pgCnt 0x10C s ≠ at_ → Answers .commandSnapshot s (fun t => t.snapAt = none ∧
    (∀ i, i < 32 → rd64 pgCnt (0x300 + 8 * i) t % 2 ^ 48 = rd64 pgCnt (0x200 + 8 * i) s % 2 ^ 48) ∧ rd64 pgCnt 0x10C t = at_ ∧ t.mem = s.mem ∧
    rf (srcPage 100) (srcOff 0x900 100) 15 0 t = satAdd 16 (rf (srcPage 100) (srcOff 0x900 100) 15 0 s) 1))

-- Start-up, security and management (R607–R610, R690–R720) ------------------------------------------------------------------------------------

/-- Reset and start-up (R377, R607, R609, R610, R687, R691, R692, R704–R706, R756, R763): RST_N rises and stage 1 begins; each stage ends as its
own rule says and the next begins; a copy of the Logbook that disagrees with two that agree is written again and counted, and a residency record that no
two copies hold is absent (R687, R688); a boot without a copy that passes halts; SVC_WARN_N enters SERVICE, before the rise of RST_N it is noted
alone; the fall of RST_N keeps what cells, Logbook and stacks in self refresh hold, the loss of power no stack's contents. -/
def Obligations.StartUp : Prop :=
  (∀ (board dev : Nat) (s : State), s.enabled = false → board < 64 → dev < 8 → Answers (.reset board dev) s (fun t => t.enabled = true ∧
    t.boot.waiting = s.svcLow ∧ t.boot.rows = 0 ∧ t.meas = [] ∧ rf pgDie 0x108 13 8 t = board ∧ rf pgDie 0x108 2 0 t = dev ∧
    sameRegs (oneReg pgDie 0x108) s t ∧ t.mem = s.mem)) ∧
  (∀ (fa fb : FlashCopy) (kept rates : List Nat) (s : State), s.enabled = true → s.boot.waiting = false → s.boot.halted = false →
    inService s = false →
    let next (P : State → Prop) : Prop := Answers (.startupStageComplete fa fb kept rates) s P
    (stageNow s = 1 → s.boot.rows = 8 → next (fun t => stageNow t = 2 ∧ rb pgClk 0x100 5 t = true ∧ t.mem = s.mem)) ∧
    (stageNow s = 2 → logCopies s < 2 → next (fun t => t.boot.halted = true ∧ stageNow t = 2 ∧ rf pgSec 0x100 31 28 t = 8 ∧
      rf pgSec 0x100 27 24 t = 8 ∧ t.mem = s.mem)) ∧
    (stageNow s = 2 → 2 ≤ logCopies s → s.boot.prefer = 0 → copyCode fa s = 0 → next (fun t => stageNow t = 3 ∧ t.boot.halted = false ∧
      rf pgSec 0x100 31 28 t = 0 ∧ rb pgSec 0x100 23 t = false ∧ rf pgSec 0x104 31 16 t = leAt fa.header 8 2 ∧ t.mem = s.mem)) ∧
    (∀ k r copy, stageNow s = 3 → s.resrecs = [(k, r)] → r.odd = [copy] → logCopies s = 3 → copy < 3 → next (fun t =>
      rf pgLog 0x104 31 0 t = satAdd 32 (rf pgLog 0x104 31 0 s) 1 ∧ (SMap.get ResRec.free t.resrecs k).odd = [])) ∧
    (∀ k r copy, stageNow s = 3 → s.resrecs = [(k, r)] → copy ∈ r.odd → rb pgLog 0x100 copy s = true → logCopies s = 2 → copy < 3 → next (fun t =>
      t.resrecs = [] ∧ rb pgLog 0x100 3 t = true)) ∧
    (stageNow s = 3 → next (fun t => stageNow t = 4 ∧ rb pgSec 0x100 21 t = !s.opKey.isEmpty ∧ (∀ e ∈ t.resrecs, e.2.st ≠ 3) ∧ t.mem = s.mem)) ∧
    (stageNow s = 4 → (∀ r, r < 64 → baseDone r s = true) → next (fun t => stageNow t = 5 ∧
      (∀ n loc, n < 20 → loc < 2 ^ 36 → locByte n loc t = (if kept.contains n then locByte n loc s else 0)) ∧
      (∀ n, n < 20 → rf (pgStk n) 0x104 11 8 t = nth 0 rates n % 5))) ∧
    (stageNow s = 5 → portsUp s = true → next (fun t => stageNow t = 6 ∧ rb pgDie 0x104 30 t = true ∧ t.boot.readyAt = now s ∧ t.mem = s.mem))) ∧
  (∀ (s : State), s.svcLow = false → Answers .svcWarn s (fun t => t.svcLow = true ∧ t.mem = s.mem ∧
    (if s.enabled then inService t = true ∧ t.boot.keyHeld = false ∧
        ∀ k ∈ unitKeys s, SMap.get 0 t.logTime k = now s + 1 ∧ SMap.get [] t.logCoef k = coefWords (k / 128) (k % 128) s
     else t.regs = s.regs ∧ t.boot = s.boot))) ∧
  (∀ (s : State), Answers .svcWarnHigh s (fun t => t.svcLow = false ∧ t.boot.waiting = false ∧ t.regs = s.regs ∧ t.mem = s.mem)) ∧
  (∀ (s : State), Answers .rstNFall s (fun t => t.enabled = false ∧ t.boot.halted = false ∧ t.boot.prefer = s.boot.prefer ∧
    t.resrecs = s.resrecs ∧ t.opKey = s.opKey ∧ t.logCoef = s.logCoef ∧ t.svcLow = s.svcLow ∧ t.strms = [] ∧ t.slots = [] ∧ inService t = false ∧
    rd64 pgDie 0x250 t = rd64 pgDie 0x250 s ∧
    ∀ n loc, n < 20 → loc < 2 ^ 36 → locByte n loc t = (if rb (pgStk n) 0x104 2 s then locByte n loc s else 0))) ∧
  (∀ (s : State), Answers .powerLoss s (fun t => t.enabled = false ∧ t.resrecs = s.resrecs ∧ t.opKey = s.opKey ∧ t.logCoef = s.logCoef ∧
    ∀ n loc, locByte n loc t = 0))

/-- Commands of management software (R526, R693, R698–R703, R707, R708, R725, R726): attestation and keys, the security counter, acknowledgement
of error records, the patch entry and the trailhead, and register access; each is answered with its status, and refused as its rule says. The
management port serves no command before the end of stage 2 (R706). -/
def Obligations.Management : Prop :=
  (∀ (s : State), stageNow s < 3 → (∀ n, Answers (.attest n) s (fun t => t = s)) ∧ (∀ k, Answers (.provision k) s (fun t => t = s)) ∧
    (∀ k g, Answers (.rotate k g) s (fun t => t = s)) ∧ Answers .commitsvn s (fun t => t = s) ∧ (∀ n, Answers (.errack n) s (fun t => t = s)) ∧
    (∀ a b c d, Answers (.patch a b c d) s (fun t => t = s)) ∧ (∀ b, Answers (.trail b) s (fun t => t = s)) ∧
    (∀ tag ra n, Answers (.mgmtRegRead tag ra n) s (fun t => t = s)) ∧ ∀ tag ra l, Answers (.mgmtRegWrite tag ra l) s (fun t => t = s)) ∧
  ∀ (s : State), inService s = false → 3 ≤ stageNow s →
    let answered (op st : Nat) (body : List Byte) (t : State) : Prop :=
      t.out.getLast? = some { kind := .mgmt, args := [0x8000 + op, st], blks := [], bytes := body }
    (∀ nonce : List Byte, nonce.length = 32 → Answers (.attest nonce) s (fun t => t.regs = s.regs ∧ t.mem = s.mem ∧
      answered 0x0101 (if (attestReport nonce s).isSome then stOK else stDENIED) ((attestReport nonce s).getD []) t)) ∧
    (∀ key : List Byte, key.length = keyLen → Answers (.provision key) s (fun t => t.mem = s.mem ∧
      (if s.opKey = [] then t.opKey = key ∧ rd pgSec 0x110 t = 1 ∧ rb pgSec 0x100 21 t = true ∧ answered 0x0102 stOK [] t
       else t.opKey = s.opKey ∧ t.regs = s.regs ∧ answered 0x0102 stDENIED [] t))) ∧
    (∀ key sig : List Byte, key.length = keyLen → sig.length = sigLen → s.opKey ≠ [] → Answers (.rotate key sig) s (fun t => t.mem = s.mem ∧
      (if Config.mldsaVerify s.opKey (sha3 (key ++ leBytes 4 ((rd pgSec 0x110 s).toNat + 1))) sig then
        t.opKey = key ∧ rd pgSec 0x110 t = word ((rd pgSec 0x110 s).toNat + 1) ∧ answered 0x0103 stOK [] t
       else t.opKey = s.opKey ∧ t.regs = s.regs ∧ answered 0x0103 stDENIED [] t))) ∧
    Answers .commitsvn s (fun t => t.mem = s.mem ∧
      (if rf pgSec 0x104 31 16 s < rf pgSec 0x104 15 0 s ∨ bit s.boot.revoke (rf pgSec 0x100 19 18 s) then t.regs = s.regs ∧
        answered 0x0104 stDENIED [] t
       else rf pgSec 0x104 15 0 t = rf pgSec 0x104 31 16 s ∧ rb pgSec 0x100 20 t = false ∧ answered 0x0104 stOK [] t)) ∧
    (∀ seq, Answers (.errack seq) s (fun t => t.records = s.records.filter (fun e => decide (seq < e.seq)) ∧ t.regs = s.regs ∧ t.mem = s.mem ∧
      answered 0x0107 stOK [] t)) ∧
    (rb pgTop 0x100 31 s = true → (∀ bx by_ lx ly, bx < 32 → by_ < 32 → lx < 32 → ly < 32 → Answers (.patch bx by_ lx ly) s (fun t =>
        t.regs = s.regs ∧ answered 0x0105 stDENIED [] t)) ∧ ∀ set, Answers (.trail set) s (fun t => t.regs = s.regs ∧ answered 0x0106 stDENIED [] t)) ∧
    (rb pgTop 0x100 31 s = false → (∀ bx by_ lx ly, bx < 32 → by_ < 32 → lx < 32 → ly < 32 → Answers (.patch bx by_ lx ly) s (fun t =>
        rd pgTop 0x300 t = word (2 ^ 31 + ly * 2 ^ 15 + lx * 2 ^ 10 + by_ * 2 ^ 5 + bx) ∧ sameMem s t ∧ answered 0x0105 stOK [] t)) ∧
      ∀ set, Answers (.trail set) s (fun t => rb pgTop 0x304 29 t = set ∧ sameMem s t ∧ answered 0x0106 stOK [] t)) ∧
    (∀ tag ra w s1, regReqOk ra 1 = true → regGet .mgmt ra s = (stOK, w, s1) → inService s1 = false → Answers (.mgmtRegRead tag ra 1) s (fun t =>
      t.regs = s1.regs ∧ t.out = s1.out ++ [{
        kind := .mgmt, args := [0x8001, stOK, tag], blks := [], bytes := leBytes 4 1 ++ leBytes 4 w.toNat }])) ∧
    (∀ tag ra v st s1, regReqOk ra 1 = true → regPut .mgmt ra v s = (st, s1) → inService s1 = false → Answers (.mgmtRegWrite tag ra [v]) s (fun t =>
      t.regs = s1.regs ∧ t.out = s1.out ++ [{
        kind := .mgmt, args := [0x8002, st, tag], blks := [], bytes := leBytes 4 (if st = stOK then 1 else 0) }]))

/-- The roll call (R708–R712): a flit without a trailhead is counted; the first CALL sets the parent; a trailhead keeps reports by identity and
builds its table when no new one has come for QUIET; a member forwards reports to its parent, and takes each segment of a new table once. -/
def Obligations.RollCall : Prop :=
  ∀ (p : Nat) (s : State), p < 5 →
    let foreign (t : State) : Prop := rf (pgRlp p) 0x12C 31 0 t = satAdd 32 (rf (pgRlp p) 0x12C 31 0 s) 1 ∧ t.roll = s.roll ∧
      sameRegs (oneReg (pgRlp p) 0x12C) s t ∧ t.mem = s.mem
    (∀ hops, Answers (.call p 0 hops) s foreign) ∧ (∀ r : RollReport, r.trail = 0 → Answers (.report p r) s foreign) ∧
    (∀ round seg lx ly present ids, Answers (.table p 0 round seg lx ly present ids) s foreign) ∧
    (∀ tr hops, tr ≠ 0 → claims s = true → isTrailhead s = false → s.roll.trail = 0 → Answers (.call p tr hops) s (fun t => t.roll.trail = tr ∧
      t.roll.hops = hops ∧ rf pgTop 0x304 28 24 t = p ∧ t.mem = s.mem)) ∧
    (∀ tr hops, s.roll.trail ≠ 0 → s.roll.trail ≤ tr → Answers (.call p tr hops) s (fun t => t = s)) ∧
    (∀ r : RollReport, r.trail ≠ 0 → rollHeld s = true → r.trail = s.roll.trail → s.roll.round = 0 → Answers (.report p r) s (fun t =>
      t.roll.reports = s.roll.reports.filter (fun q => q.ident ≠ r.ident) ++ [r] ∧ t.regs = s.regs ∧ t.mem = s.mem)) ∧
    (∀ r : RollReport, ∀ k, r.trail ≠ 0 → rollHeld s = false → parentPort s = some k → Answers (.report p r) s (fun t =>
      t = if k = p then s else sendFlit k (rollFlit (reportBody r) s) s)) ∧
    (∀ tr round seg lx ly present ids, tr ≠ 0 → rollHeld s = false → s.roll.trail = tr → seg ≤ 15 → round ≠ 0 →
      (rf pgTop 0x304 23 16 s ≠ round → s.roll.segs = [] → Answers (.table p tr round seg lx ly present ids) s (fun t =>
        t.roll.segs = [(seg, ids)] ∧ t.roll.round = round ∧ sameRegs noReg s t ∧ t.mem = s.mem)) ∧
      (rf pgTop 0x304 23 16 s = round → Answers (.table p tr round seg lx ly present ids) s (fun t => t = s))) ∧
    (rollHeld s = true → s.roll.round = 0 → s.roll.lastAt + msec * rf pgTop 0x308 15 0 s ≤ now s → Answers .rollcallTableBuild s (fun t =>
      t.roll.round = 1 ∧ rf pgTop 0x304 23 16 t = 1 ∧ t.roll.table.length = 1024 ∧ sameMem s t)) ∧
    (rollHeld s = false → Answers .rollcallTableBuild s (fun t => t = s))

end
end

