-- ==== Sys2Proof/Laws/Map.lean ====
section
/-! SUPPORT. Sparse tables: what a table holds after a write, and that a write keeps the canonical form. -/

namespace Sys2Proof.Machine

variable {α : Type}

@[simp] theorem SMap.get_nil (d : α) (i : Nat) : SMap.get d [] i = d := rfl

theorem SMap.get_del_same (d : α) (m : SMap α) (i : Nat) : SMap.get d (SMap.del m i) i = d := by
  induction m with
  | nil => rfl
  | cons e m ih =>
    by_cases h : e.1 = i
    · simp [SMap.del, h, ih]
    · simp [SMap.del, SMap.get, h, ih]

theorem SMap.get_del_other (d : α) (m : SMap α) {i j : Nat} (h : i ≠ j) : SMap.get d (SMap.del m i) j = SMap.get d m j := by
  induction m with
  | nil => rfl
  | cons e m ih =>
    by_cases h1 : e.1 = i
    · have h2 : e.1 ≠ j := fun h2 => h (h1.symm.trans h2)
      simp [SMap.del, SMap.get, h1, h, ih]
    · simp [SMap.del, SMap.get, h1, ih]

theorem SMap.get_ins_same (d : α) (m : SMap α) (i : Nat) (x : α) :
    SMap.get d (SMap.ins (SMap.del m i) i x) i = x := by
  induction m with
  | nil => simp [SMap.del, SMap.ins, SMap.get]
  | cons e m ih =>
    by_cases h1 : e.1 = i
    · simp [SMap.del, h1, ih]
    · by_cases h2 : i < e.1
      · simp [SMap.del, SMap.ins, SMap.get, h1, h2]
      · simp [SMap.del, SMap.ins, SMap.get, h1, h2, ih]

theorem SMap.get_ins_other (d : α) (m : SMap α) {i j : Nat} (x : α) (h : i ≠ j) :
    SMap.get d (SMap.ins m i x) j = SMap.get d m j := by
  induction m with
  | nil => simp [SMap.ins, SMap.get, h]
  | cons e m ih =>
    by_cases h2 : i < e.1
    · simp [SMap.ins, SMap.get, h, h2]
    · simp [SMap.ins, SMap.get, h2, ih]

/-- A key that has just been set reads as what it was set to. -/
@[simp] theorem SMap.get_set_same [DecidableEq α] (d : α) (m : SMap α) (i : Nat) (x : α) : SMap.get d (SMap.set d m i x) i = x := by
  by_cases h : x = d
  · simp [SMap.set, h, SMap.get_del_same]
  · simp [SMap.set, h, SMap.get_ins_same]

/-- Setting one key leaves every other as it was, under any default. -/
theorem SMap.get_set_other [DecidableEq α] (d e : α) (m : SMap α) {i j : Nat} (x : α) (h : i ≠ j) :
    SMap.get e (SMap.set d m i x) j = SMap.get e m j := by
  by_cases hx : x = d
  · simp [SMap.set, hx, SMap.get_del_other _ _ h]
  · simp [SMap.set, hx, SMap.get_ins_other _ _ _ h, SMap.get_del_other _ _ h]

/-- What any key reads as after one is set. -/
theorem SMap.get_set [DecidableEq α] (d : α) (m : SMap α) (i j : Nat) (x : α) :
    SMap.get d (SMap.set d m i x) j = if i = j then x else SMap.get d m j := by
  by_cases h : i = j
  · subst h; simp
  · simp [h, SMap.get_set_other]

theorem SMap.rising_mono {b c : Nat} (h : c ≤ b) {m : SMap α} (hm : SMap.rising b m = true) : SMap.rising c m = true := by
  cases m with
  | nil => rfl
  | cons e m => simp [SMap.rising] at hm ⊢; exact ⟨by omega, hm.2⟩

theorem SMap.rising_del {b : Nat} {m : SMap α} (i : Nat) (hm : SMap.rising b m = true) : SMap.rising b (SMap.del m i) = true := by
  induction m generalizing b with
  | nil => rfl
  | cons e m ih =>
    simp [SMap.rising] at hm
    by_cases h : e.1 = i
    · simp only [SMap.del, h, if_true]
      exact SMap.rising_mono (by omega) (ih hm.2)
    · simp [SMap.del, h, SMap.rising, hm.1, ih hm.2]

theorem SMap.rising_ins {b i : Nat} {m : SMap α} (x : α) (hb : b ≤ i) (hm : SMap.rising b m = true) (hi : ∀ e ∈ m, e.1 ≠ i) :
    SMap.rising b (SMap.ins m i x) = true := by
  induction m generalizing b with
  | nil => simp [SMap.ins, SMap.rising, hb]
  | cons e m ih =>
    simp [SMap.rising] at hm
    have hne := hi e (by simp)
    by_cases h : i < e.1
    · simp only [SMap.ins, h, if_true, SMap.rising, Bool.and_eq_true, decide_eq_true_eq]
      exact ⟨hb, h, hm.2⟩
    · simp only [SMap.ins, h, if_false, SMap.rising]
      simp [hm.1, ih (b := e.1 + 1) (by omega) hm.2 (fun f hf => hi f (by simp [hf]))]

theorem SMap.del_mem {m : SMap α} {i : Nat} {e : Nat × α} (h : e ∈ SMap.del m i) : e ∈ m ∧ e.1 ≠ i := by
  induction m with
  | nil => simp [SMap.del] at h
  | cons f m ih =>
    by_cases h1 : f.1 = i
    · simp [SMap.del, h1] at h
      exact ⟨List.mem_cons_of_mem _ (ih h).1, (ih h).2⟩
    · simp [SMap.del, h1] at h
      rcases h with rfl | h
      · exact ⟨by simp, h1⟩
      · exact ⟨List.mem_cons_of_mem _ (ih h).1, (ih h).2⟩

theorem SMap.ins_mem {m : SMap α} {i : Nat} {x : α} {e : Nat × α} (h : e ∈ SMap.ins m i x) : e = (i, x) ∨ e ∈ m := by
  induction m with
  | nil => simpa [SMap.ins] using h
  | cons f m ih =>
    by_cases h1 : i < f.1
    · simpa [SMap.ins, h1] using h
    · simp [SMap.ins, h1] at h
      rcases h with rfl | h
      · simp
      · rcases ih h with h | h
        · exact .inl h
        · exact .inr (by simp [h])

/-- Setting a key keeps a table's canonical form. -/
theorem SMap.wf_set [DecidableEq α] {d : α} {m : SMap α} (i : Nat) (x : α) (hm : SMap.wf d m = true) :
    SMap.wf d (SMap.set d m i x) = true := by
  simp only [SMap.wf, Bool.and_eq_true, List.all_eq_true, decide_eq_true_eq] at hm ⊢
  have hr := SMap.rising_del i hm.1
  have hd : ∀ e ∈ SMap.del m i, e.2 ≠ d := fun e he => hm.2 e (SMap.del_mem he).1
  by_cases hx : x = d
  · simp only [SMap.set, hx, if_true]
    exact ⟨hr, hd⟩
  · simp only [SMap.set, hx, if_false]
    refine ⟨SMap.rising_ins x (Nat.zero_le i) hr (fun e he => (SMap.del_mem he).2), fun e he => ?_⟩
    rcases SMap.ins_mem he with rfl | he
    · exact hx
    · exact hd e he

end Sys2Proof.Machine
end

