-- ==== Sys2Proof/Laws/State.lean ====
section
/-! SUPPORT. What each primitive update of the state leaves and gives, field by field. -/

namespace Sys2Proof.Machine

variable (s : State)

-- wr
@[simp] theorem wr_free (p : Page) (off : Nat) (v : Word) : (wr p off v s).free = s.free := rfl
@[simp] theorem wr_rack (p : Page) (off : Nat) (v : Word) : (wr p off v s).rack = s.rack := rfl
theorem wr_regs (p : Page) (off : Nat) (v : Word) : (wr p off v s).regs = SMap.set (p.resetWord off) s.regs (p.base + off) v := rfl
@[simp] theorem wr_latch (p : Page) (off : Nat) (v : Word) : (wr p off v s).latch = s.latch := rfl
@[simp] theorem wr_locks (p : Page) (off : Nat) (v : Word) : (wr p off v s).locks = s.locks := rfl
@[simp] theorem wr_evHold (p : Page) (off : Nat) (v : Word) : (wr p off v s).evHold = s.evHold := rfl
@[simp] theorem wr_whiDue (p : Page) (off : Nat) (v : Word) : (wr p off v s).whiDue = s.whiDue := rfl
@[simp] theorem wr_whiWait (p : Page) (off : Nat) (v : Word) : (wr p off v s).whiWait = s.whiWait := rfl
@[simp] theorem wr_ovfNext (p : Page) (off : Nat) (v : Word) : (wr p off v s).ovfNext = s.ovfNext := rfl
@[simp] theorem wr_snapAt (p : Page) (off : Nat) (v : Word) : (wr p off v s).snapAt = s.snapAt := rfl
@[simp] theorem wr_units (p : Page) (off : Nat) (v : Word) : (wr p off v s).units = s.units := rfl
@[simp] theorem wr_clus (p : Page) (off : Nat) (v : Word) : (wr p off v s).clus = s.clus := rfl
@[simp] theorem wr_rgns (p : Page) (off : Nat) (v : Word) : (wr p off v s).rgns = s.rgns := rfl
@[simp] theorem wr_mem (p : Page) (off : Nat) (v : Word) : (wr p off v s).mem = s.mem := rfl
@[simp] theorem wr_slots (p : Page) (off : Nat) (v : Word) : (wr p off v s).slots = s.slots := rfl
@[simp] theorem wr_suspects (p : Page) (off : Nat) (v : Word) : (wr p off v s).suspects = s.suspects := rfl
@[simp] theorem wr_failRecs (p : Page) (off : Nat) (v : Word) : (wr p off v s).failRecs = s.failRecs := rfl
@[simp] theorem wr_downs (p : Page) (off : Nat) (v : Word) : (wr p off v s).downs = s.downs := rfl
@[simp] theorem wr_netPath (p : Page) (off : Nat) (v : Word) : (wr p off v s).netPath = s.netPath := rfl
@[simp] theorem wr_netFails (p : Page) (off : Nat) (v : Word) : (wr p off v s).netFails = s.netFails := rfl
@[simp] theorem wr_netWait (p : Page) (off : Nat) (v : Word) : (wr p off v s).netWait = s.netWait := rfl
@[simp] theorem wr_records (p : Page) (off : Nat) (v : Word) : (wr p off v s).records = s.records := rfl
@[simp] theorem wr_layerRegs (p : Page) (off : Nat) (v : Word) : (wr p off v s).layerRegs = s.layerRegs := rfl
@[simp] theorem wr_epochAdd (p : Page) (off : Nat) (v : Word) : (wr p off v s).epochAdd = s.epochAdd := rfl
@[simp] theorem wr_epochRaised (p : Page) (off : Nat) (v : Word) : (wr p off v s).epochRaised = s.epochRaised := rfl
@[simp] theorem wr_rcpOwner (p : Page) (off : Nat) (v : Word) : (wr p off v s).rcpOwner = s.rcpOwner := rfl
@[simp] theorem wr_resrecs (p : Page) (off : Nat) (v : Word) : (wr p off v s).resrecs = s.resrecs := rfl
@[simp] theorem wr_logCoef (p : Page) (off : Nat) (v : Word) : (wr p off v s).logCoef = s.logCoef := rfl
@[simp] theorem wr_logTime (p : Page) (off : Nat) (v : Word) : (wr p off v s).logTime = s.logTime := rfl
@[simp] theorem wr_logWear (p : Page) (off : Nat) (v : Word) : (wr p off v s).logWear = s.logWear := rfl
@[simp] theorem wr_stks (p : Page) (off : Nat) (v : Word) : (wr p off v s).stks = s.stks := rfl
@[simp] theorem wr_ioRegs (p : Page) (off : Nat) (v : Word) : (wr p off v s).ioRegs = s.ioRegs := rfl
@[simp] theorem wr_outFail (p : Page) (off : Nat) (v : Word) : (wr p off v s).outFail = s.outFail := rfl
@[simp] theorem wr_strms (p : Page) (off : Nat) (v : Word) : (wr p off v s).strms = s.strms := rfl
@[simp] theorem wr_arrNo (p : Page) (off : Nat) (v : Word) : (wr p off v s).arrNo = s.arrNo := rfl
@[simp] theorem wr_results (p : Page) (off : Nat) (v : Word) : (wr p off v s).results = s.results := rfl
@[simp] theorem wr_events (p : Page) (off : Nat) (v : Word) : (wr p off v s).events = s.events := rfl
@[simp] theorem wr_twn (p : Page) (off : Nat) (v : Word) : (wr p off v s).twn = s.twn := rfl
@[simp] theorem wr_qmax (p : Page) (off : Nat) (v : Word) : (wr p off v s).qmax = s.qmax := rfl
@[simp] theorem wr_rrLast (p : Page) (off : Nat) (v : Word) : (wr p off v s).rrLast = s.rrLast := rfl
@[simp] theorem wr_limitAt (p : Page) (off : Nat) (v : Word) : (wr p off v s).limitAt = s.limitAt := rfl
@[simp] theorem wr_dz (p : Page) (off : Nat) (v : Word) : (wr p off v s).dz = s.dz := rfl
@[simp] theorem wr_admJob (p : Page) (off : Nat) (v : Word) : (wr p off v s).admJob = s.admJob := rfl
@[simp] theorem wr_opKey (p : Page) (off : Nat) (v : Word) : (wr p off v s).opKey = s.opKey := rfl
@[simp] theorem wr_ports (p : Page) (off : Nat) (v : Word) : (wr p off v s).ports = s.ports := rfl
@[simp] theorem wr_paths (p : Page) (off : Nat) (v : Word) : (wr p off v s).paths = s.paths := rfl
@[simp] theorem wr_peers (p : Page) (off : Nat) (v : Word) : (wr p off v s).peers = s.peers := rfl
@[simp] theorem wr_recalls (p : Page) (off : Nat) (v : Word) : (wr p off v s).recalls = s.recalls := rfl
@[simp] theorem wr_rtArm (p : Page) (off : Nat) (v : Word) : (wr p off v s).rtArm = s.rtArm := rfl
@[simp] theorem wr_ptpArm (p : Page) (off : Nat) (v : Word) : (wr p off v s).ptpArm = s.ptpArm := rfl
@[simp] theorem wr_ptpOfs (p : Page) (off : Nat) (v : Word) : (wr p off v s).ptpOfs = s.ptpOfs := rfl
@[simp] theorem wr_roll (p : Page) (off : Nat) (v : Word) : (wr p off v s).roll = s.roll := rfl
@[simp] theorem wr_ld (p : Page) (off : Nat) (v : Word) : (wr p off v s).ld = s.ld := rfl
@[simp] theorem wr_logFails (p : Page) (off : Nat) (v : Word) : (wr p off v s).logFails = s.logFails := rfl
@[simp] theorem wr_stress (p : Page) (off : Nat) (v : Word) : (wr p off v s).stress = s.stress := rfl
@[simp] theorem wr_dampAt (p : Page) (off : Nat) (v : Word) : (wr p off v s).dampAt = s.dampAt := rfl
@[simp] theorem wr_epochAt (p : Page) (off : Nat) (v : Word) : (wr p off v s).epochAt = s.epochAt := rfl
@[simp] theorem wr_refAt (p : Page) (off : Nat) (v : Word) : (wr p off v s).refAt = s.refAt := rfl
@[simp] theorem wr_meas (p : Page) (off : Nat) (v : Word) : (wr p off v s).meas = s.meas := rfl
@[simp] theorem wr_boot (p : Page) (off : Nat) (v : Word) : (wr p off v s).boot = s.boot := rfl
@[simp] theorem wr_twinDel (p : Page) (off : Nat) (v : Word) : (wr p off v s).twinDel = s.twinDel := rfl
@[simp] theorem wr_enabled (p : Page) (off : Nat) (v : Word) : (wr p off v s).enabled = s.enabled := rfl
@[simp] theorem wr_svcLow (p : Page) (off : Nat) (v : Word) : (wr p off v s).svcLow = s.svcLow := rfl
@[simp] theorem wr_sresp (p : Page) (off : Nat) (v : Word) : (wr p off v s).sresp = s.sresp := rfl
@[simp] theorem wr_out (p : Page) (off : Nat) (v : Word) : (wr p off v s).out = s.out := rfl
@[simp] theorem wr_pending (p : Page) (off : Nat) (v : Word) : (wr p off v s).pending = s.pending := rfl

-- wrQ
@[simp] theorem wrQ_free (q : Requester) (p : Page) (off : Nat) (v : Word) : (wrQ q p off v s).free = s.free := rfl
@[simp] theorem wrQ_rack (q : Requester) (p : Page) (off : Nat) (v : Word) : (wrQ q p off v s).rack = s.rack := rfl
theorem wrQ_regs (q : Requester) (p : Page) (off : Nat) (v : Word) : (wrQ q p off v s).regs = SMap.set (p.resetWord off) s.regs (bankKey q p off) v := rfl
@[simp] theorem wrQ_latch (q : Requester) (p : Page) (off : Nat) (v : Word) : (wrQ q p off v s).latch = s.latch := rfl
@[simp] theorem wrQ_locks (q : Requester) (p : Page) (off : Nat) (v : Word) : (wrQ q p off v s).locks = s.locks := rfl
@[simp] theorem wrQ_evHold (q : Requester) (p : Page) (off : Nat) (v : Word) : (wrQ q p off v s).evHold = s.evHold := rfl
@[simp] theorem wrQ_whiDue (q : Requester) (p : Page) (off : Nat) (v : Word) : (wrQ q p off v s).whiDue = s.whiDue := rfl
@[simp] theorem wrQ_whiWait (q : Requester) (p : Page) (off : Nat) (v : Word) : (wrQ q p off v s).whiWait = s.whiWait := rfl
@[simp] theorem wrQ_ovfNext (q : Requester) (p : Page) (off : Nat) (v : Word) : (wrQ q p off v s).ovfNext = s.ovfNext := rfl
@[simp] theorem wrQ_snapAt (q : Requester) (p : Page) (off : Nat) (v : Word) : (wrQ q p off v s).snapAt = s.snapAt := rfl
@[simp] theorem wrQ_units (q : Requester) (p : Page) (off : Nat) (v : Word) : (wrQ q p off v s).units = s.units := rfl
@[simp] theorem wrQ_clus (q : Requester) (p : Page) (off : Nat) (v : Word) : (wrQ q p off v s).clus = s.clus := rfl
@[simp] theorem wrQ_rgns (q : Requester) (p : Page) (off : Nat) (v : Word) : (wrQ q p off v s).rgns = s.rgns := rfl
@[simp] theorem wrQ_mem (q : Requester) (p : Page) (off : Nat) (v : Word) : (wrQ q p off v s).mem = s.mem := rfl
@[simp] theorem wrQ_slots (q : Requester) (p : Page) (off : Nat) (v : Word) : (wrQ q p off v s).slots = s.slots := rfl
@[simp] theorem wrQ_suspects (q : Requester) (p : Page) (off : Nat) (v : Word) : (wrQ q p off v s).suspects = s.suspects := rfl
@[simp] theorem wrQ_failRecs (q : Requester) (p : Page) (off : Nat) (v : Word) : (wrQ q p off v s).failRecs = s.failRecs := rfl
@[simp] theorem wrQ_downs (q : Requester) (p : Page) (off : Nat) (v : Word) : (wrQ q p off v s).downs = s.downs := rfl
@[simp] theorem wrQ_netPath (q : Requester) (p : Page) (off : Nat) (v : Word) : (wrQ q p off v s).netPath = s.netPath := rfl
@[simp] theorem wrQ_netFails (q : Requester) (p : Page) (off : Nat) (v : Word) : (wrQ q p off v s).netFails = s.netFails := rfl
@[simp] theorem wrQ_netWait (q : Requester) (p : Page) (off : Nat) (v : Word) : (wrQ q p off v s).netWait = s.netWait := rfl
@[simp] theorem wrQ_records (q : Requester) (p : Page) (off : Nat) (v : Word) : (wrQ q p off v s).records = s.records := rfl
@[simp] theorem wrQ_layerRegs (q : Requester) (p : Page) (off : Nat) (v : Word) : (wrQ q p off v s).layerRegs = s.layerRegs := rfl
@[simp] theorem wrQ_epochAdd (q : Requester) (p : Page) (off : Nat) (v : Word) : (wrQ q p off v s).epochAdd = s.epochAdd := rfl
@[simp] theorem wrQ_epochRaised (q : Requester) (p : Page) (off : Nat) (v : Word) : (wrQ q p off v s).epochRaised = s.epochRaised := rfl
@[simp] theorem wrQ_rcpOwner (q : Requester) (p : Page) (off : Nat) (v : Word) : (wrQ q p off v s).rcpOwner = s.rcpOwner := rfl
@[simp] theorem wrQ_resrecs (q : Requester) (p : Page) (off : Nat) (v : Word) : (wrQ q p off v s).resrecs = s.resrecs := rfl
@[simp] theorem wrQ_logCoef (q : Requester) (p : Page) (off : Nat) (v : Word) : (wrQ q p off v s).logCoef = s.logCoef := rfl
@[simp] theorem wrQ_logTime (q : Requester) (p : Page) (off : Nat) (v : Word) : (wrQ q p off v s).logTime = s.logTime := rfl
@[simp] theorem wrQ_logWear (q : Requester) (p : Page) (off : Nat) (v : Word) : (wrQ q p off v s).logWear = s.logWear := rfl
@[simp] theorem wrQ_stks (q : Requester) (p : Page) (off : Nat) (v : Word) : (wrQ q p off v s).stks = s.stks := rfl
@[simp] theorem wrQ_ioRegs (q : Requester) (p : Page) (off : Nat) (v : Word) : (wrQ q p off v s).ioRegs = s.ioRegs := rfl
@[simp] theorem wrQ_outFail (q : Requester) (p : Page) (off : Nat) (v : Word) : (wrQ q p off v s).outFail = s.outFail := rfl
@[simp] theorem wrQ_strms (q : Requester) (p : Page) (off : Nat) (v : Word) : (wrQ q p off v s).strms = s.strms := rfl
@[simp] theorem wrQ_arrNo (q : Requester) (p : Page) (off : Nat) (v : Word) : (wrQ q p off v s).arrNo = s.arrNo := rfl
@[simp] theorem wrQ_results (q : Requester) (p : Page) (off : Nat) (v : Word) : (wrQ q p off v s).results = s.results := rfl
@[simp] theorem wrQ_events (q : Requester) (p : Page) (off : Nat) (v : Word) : (wrQ q p off v s).events = s.events := rfl
@[simp] theorem wrQ_twn (q : Requester) (p : Page) (off : Nat) (v : Word) : (wrQ q p off v s).twn = s.twn := rfl
@[simp] theorem wrQ_qmax (q : Requester) (p : Page) (off : Nat) (v : Word) : (wrQ q p off v s).qmax = s.qmax := rfl
@[simp] theorem wrQ_rrLast (q : Requester) (p : Page) (off : Nat) (v : Word) : (wrQ q p off v s).rrLast = s.rrLast := rfl
@[simp] theorem wrQ_limitAt (q : Requester) (p : Page) (off : Nat) (v : Word) : (wrQ q p off v s).limitAt = s.limitAt := rfl
@[simp] theorem wrQ_dz (q : Requester) (p : Page) (off : Nat) (v : Word) : (wrQ q p off v s).dz = s.dz := rfl
@[simp] theorem wrQ_admJob (q : Requester) (p : Page) (off : Nat) (v : Word) : (wrQ q p off v s).admJob = s.admJob := rfl
@[simp] theorem wrQ_opKey (q : Requester) (p : Page) (off : Nat) (v : Word) : (wrQ q p off v s).opKey = s.opKey := rfl
@[simp] theorem wrQ_ports (q : Requester) (p : Page) (off : Nat) (v : Word) : (wrQ q p off v s).ports = s.ports := rfl
@[simp] theorem wrQ_paths (q : Requester) (p : Page) (off : Nat) (v : Word) : (wrQ q p off v s).paths = s.paths := rfl
@[simp] theorem wrQ_peers (q : Requester) (p : Page) (off : Nat) (v : Word) : (wrQ q p off v s).peers = s.peers := rfl
@[simp] theorem wrQ_recalls (q : Requester) (p : Page) (off : Nat) (v : Word) : (wrQ q p off v s).recalls = s.recalls := rfl
@[simp] theorem wrQ_rtArm (q : Requester) (p : Page) (off : Nat) (v : Word) : (wrQ q p off v s).rtArm = s.rtArm := rfl
@[simp] theorem wrQ_ptpArm (q : Requester) (p : Page) (off : Nat) (v : Word) : (wrQ q p off v s).ptpArm = s.ptpArm := rfl
@[simp] theorem wrQ_ptpOfs (q : Requester) (p : Page) (off : Nat) (v : Word) : (wrQ q p off v s).ptpOfs = s.ptpOfs := rfl
@[simp] theorem wrQ_roll (q : Requester) (p : Page) (off : Nat) (v : Word) : (wrQ q p off v s).roll = s.roll := rfl
@[simp] theorem wrQ_ld (q : Requester) (p : Page) (off : Nat) (v : Word) : (wrQ q p off v s).ld = s.ld := rfl
@[simp] theorem wrQ_logFails (q : Requester) (p : Page) (off : Nat) (v : Word) : (wrQ q p off v s).logFails = s.logFails := rfl
@[simp] theorem wrQ_stress (q : Requester) (p : Page) (off : Nat) (v : Word) : (wrQ q p off v s).stress = s.stress := rfl
@[simp] theorem wrQ_dampAt (q : Requester) (p : Page) (off : Nat) (v : Word) : (wrQ q p off v s).dampAt = s.dampAt := rfl
@[simp] theorem wrQ_epochAt (q : Requester) (p : Page) (off : Nat) (v : Word) : (wrQ q p off v s).epochAt = s.epochAt := rfl
@[simp] theorem wrQ_refAt (q : Requester) (p : Page) (off : Nat) (v : Word) : (wrQ q p off v s).refAt = s.refAt := rfl
@[simp] theorem wrQ_meas (q : Requester) (p : Page) (off : Nat) (v : Word) : (wrQ q p off v s).meas = s.meas := rfl
@[simp] theorem wrQ_boot (q : Requester) (p : Page) (off : Nat) (v : Word) : (wrQ q p off v s).boot = s.boot := rfl
@[simp] theorem wrQ_twinDel (q : Requester) (p : Page) (off : Nat) (v : Word) : (wrQ q p off v s).twinDel = s.twinDel := rfl
@[simp] theorem wrQ_enabled (q : Requester) (p : Page) (off : Nat) (v : Word) : (wrQ q p off v s).enabled = s.enabled := rfl
@[simp] theorem wrQ_svcLow (q : Requester) (p : Page) (off : Nat) (v : Word) : (wrQ q p off v s).svcLow = s.svcLow := rfl
@[simp] theorem wrQ_sresp (q : Requester) (p : Page) (off : Nat) (v : Word) : (wrQ q p off v s).sresp = s.sresp := rfl
@[simp] theorem wrQ_out (q : Requester) (p : Page) (off : Nat) (v : Word) : (wrQ q p off v s).out = s.out := rfl
@[simp] theorem wrQ_pending (q : Requester) (p : Page) (off : Nat) (v : Word) : (wrQ q p off v s).pending = s.pending := rfl

-- emit
@[simp] theorem emit_free (o : Out) : (emit o s).free = s.free := rfl
@[simp] theorem emit_rack (o : Out) : (emit o s).rack = s.rack := rfl
@[simp] theorem emit_regs (o : Out) : (emit o s).regs = s.regs := rfl
@[simp] theorem emit_latch (o : Out) : (emit o s).latch = s.latch := rfl
@[simp] theorem emit_locks (o : Out) : (emit o s).locks = s.locks := rfl
@[simp] theorem emit_evHold (o : Out) : (emit o s).evHold = s.evHold := rfl
@[simp] theorem emit_whiDue (o : Out) : (emit o s).whiDue = s.whiDue := rfl
@[simp] theorem emit_whiWait (o : Out) : (emit o s).whiWait = s.whiWait := rfl
@[simp] theorem emit_ovfNext (o : Out) : (emit o s).ovfNext = s.ovfNext := rfl
@[simp] theorem emit_snapAt (o : Out) : (emit o s).snapAt = s.snapAt := rfl
@[simp] theorem emit_units (o : Out) : (emit o s).units = s.units := rfl
@[simp] theorem emit_clus (o : Out) : (emit o s).clus = s.clus := rfl
@[simp] theorem emit_rgns (o : Out) : (emit o s).rgns = s.rgns := rfl
@[simp] theorem emit_mem (o : Out) : (emit o s).mem = s.mem := rfl
@[simp] theorem emit_slots (o : Out) : (emit o s).slots = s.slots := rfl
@[simp] theorem emit_suspects (o : Out) : (emit o s).suspects = s.suspects := rfl
@[simp] theorem emit_failRecs (o : Out) : (emit o s).failRecs = s.failRecs := rfl
@[simp] theorem emit_downs (o : Out) : (emit o s).downs = s.downs := rfl
@[simp] theorem emit_netPath (o : Out) : (emit o s).netPath = s.netPath := rfl
@[simp] theorem emit_netFails (o : Out) : (emit o s).netFails = s.netFails := rfl
@[simp] theorem emit_netWait (o : Out) : (emit o s).netWait = s.netWait := rfl
@[simp] theorem emit_records (o : Out) : (emit o s).records = s.records := rfl
@[simp] theorem emit_layerRegs (o : Out) : (emit o s).layerRegs = s.layerRegs := rfl
@[simp] theorem emit_epochAdd (o : Out) : (emit o s).epochAdd = s.epochAdd := rfl
@[simp] theorem emit_epochRaised (o : Out) : (emit o s).epochRaised = s.epochRaised := rfl
@[simp] theorem emit_rcpOwner (o : Out) : (emit o s).rcpOwner = s.rcpOwner := rfl
@[simp] theorem emit_resrecs (o : Out) : (emit o s).resrecs = s.resrecs := rfl
@[simp] theorem emit_logCoef (o : Out) : (emit o s).logCoef = s.logCoef := rfl
@[simp] theorem emit_logTime (o : Out) : (emit o s).logTime = s.logTime := rfl
@[simp] theorem emit_logWear (o : Out) : (emit o s).logWear = s.logWear := rfl
@[simp] theorem emit_stks (o : Out) : (emit o s).stks = s.stks := rfl
@[simp] theorem emit_ioRegs (o : Out) : (emit o s).ioRegs = s.ioRegs := rfl
@[simp] theorem emit_outFail (o : Out) : (emit o s).outFail = s.outFail := rfl
@[simp] theorem emit_strms (o : Out) : (emit o s).strms = s.strms := rfl
@[simp] theorem emit_arrNo (o : Out) : (emit o s).arrNo = s.arrNo := rfl
@[simp] theorem emit_results (o : Out) : (emit o s).results = s.results := rfl
@[simp] theorem emit_events (o : Out) : (emit o s).events = s.events := rfl
@[simp] theorem emit_twn (o : Out) : (emit o s).twn = s.twn := rfl
@[simp] theorem emit_qmax (o : Out) : (emit o s).qmax = s.qmax := rfl
@[simp] theorem emit_rrLast (o : Out) : (emit o s).rrLast = s.rrLast := rfl
@[simp] theorem emit_limitAt (o : Out) : (emit o s).limitAt = s.limitAt := rfl
@[simp] theorem emit_dz (o : Out) : (emit o s).dz = s.dz := rfl
@[simp] theorem emit_admJob (o : Out) : (emit o s).admJob = s.admJob := rfl
@[simp] theorem emit_opKey (o : Out) : (emit o s).opKey = s.opKey := rfl
@[simp] theorem emit_ports (o : Out) : (emit o s).ports = s.ports := rfl
@[simp] theorem emit_paths (o : Out) : (emit o s).paths = s.paths := rfl
@[simp] theorem emit_peers (o : Out) : (emit o s).peers = s.peers := rfl
@[simp] theorem emit_recalls (o : Out) : (emit o s).recalls = s.recalls := rfl
@[simp] theorem emit_rtArm (o : Out) : (emit o s).rtArm = s.rtArm := rfl
@[simp] theorem emit_ptpArm (o : Out) : (emit o s).ptpArm = s.ptpArm := rfl
@[simp] theorem emit_ptpOfs (o : Out) : (emit o s).ptpOfs = s.ptpOfs := rfl
@[simp] theorem emit_roll (o : Out) : (emit o s).roll = s.roll := rfl
@[simp] theorem emit_ld (o : Out) : (emit o s).ld = s.ld := rfl
@[simp] theorem emit_logFails (o : Out) : (emit o s).logFails = s.logFails := rfl
@[simp] theorem emit_stress (o : Out) : (emit o s).stress = s.stress := rfl
@[simp] theorem emit_dampAt (o : Out) : (emit o s).dampAt = s.dampAt := rfl
@[simp] theorem emit_epochAt (o : Out) : (emit o s).epochAt = s.epochAt := rfl
@[simp] theorem emit_refAt (o : Out) : (emit o s).refAt = s.refAt := rfl
@[simp] theorem emit_meas (o : Out) : (emit o s).meas = s.meas := rfl
@[simp] theorem emit_boot (o : Out) : (emit o s).boot = s.boot := rfl
@[simp] theorem emit_twinDel (o : Out) : (emit o s).twinDel = s.twinDel := rfl
@[simp] theorem emit_enabled (o : Out) : (emit o s).enabled = s.enabled := rfl
@[simp] theorem emit_svcLow (o : Out) : (emit o s).svcLow = s.svcLow := rfl
@[simp] theorem emit_sresp (o : Out) : (emit o s).sresp = s.sresp := rfl
theorem emit_out (o : Out) : (emit o s).out = s.out ++ [o] := rfl
@[simp] theorem emit_pending (o : Out) : (emit o s).pending = s.pending := rfl

-- setUnit
@[simp] theorem setUnit_free (c n : Nat) (x : USlot) : (setUnit c n x s).free = s.free := rfl
@[simp] theorem setUnit_rack (c n : Nat) (x : USlot) : (setUnit c n x s).rack = s.rack := rfl
@[simp] theorem setUnit_regs (c n : Nat) (x : USlot) : (setUnit c n x s).regs = s.regs := rfl
@[simp] theorem setUnit_latch (c n : Nat) (x : USlot) : (setUnit c n x s).latch = s.latch := rfl
@[simp] theorem setUnit_locks (c n : Nat) (x : USlot) : (setUnit c n x s).locks = s.locks := rfl
@[simp] theorem setUnit_evHold (c n : Nat) (x : USlot) : (setUnit c n x s).evHold = s.evHold := rfl
@[simp] theorem setUnit_whiDue (c n : Nat) (x : USlot) : (setUnit c n x s).whiDue = s.whiDue := rfl
@[simp] theorem setUnit_whiWait (c n : Nat) (x : USlot) : (setUnit c n x s).whiWait = s.whiWait := rfl
@[simp] theorem setUnit_ovfNext (c n : Nat) (x : USlot) : (setUnit c n x s).ovfNext = s.ovfNext := rfl
@[simp] theorem setUnit_snapAt (c n : Nat) (x : USlot) : (setUnit c n x s).snapAt = s.snapAt := rfl
theorem setUnit_units (c n : Nat) (x : USlot) : (setUnit c n x s).units = SMap.set (USlot.fresh n) s.units (ukey c n) x := rfl
@[simp] theorem setUnit_clus (c n : Nat) (x : USlot) : (setUnit c n x s).clus = s.clus := rfl
@[simp] theorem setUnit_rgns (c n : Nat) (x : USlot) : (setUnit c n x s).rgns = s.rgns := rfl
@[simp] theorem setUnit_mem (c n : Nat) (x : USlot) : (setUnit c n x s).mem = s.mem := rfl
@[simp] theorem setUnit_slots (c n : Nat) (x : USlot) : (setUnit c n x s).slots = s.slots := rfl
@[simp] theorem setUnit_suspects (c n : Nat) (x : USlot) : (setUnit c n x s).suspects = s.suspects := rfl
@[simp] theorem setUnit_failRecs (c n : Nat) (x : USlot) : (setUnit c n x s).failRecs = s.failRecs := rfl
@[simp] theorem setUnit_downs (c n : Nat) (x : USlot) : (setUnit c n x s).downs = s.downs := rfl
@[simp] theorem setUnit_netPath (c n : Nat) (x : USlot) : (setUnit c n x s).netPath = s.netPath := rfl
@[simp] theorem setUnit_netFails (c n : Nat) (x : USlot) : (setUnit c n x s).netFails = s.netFails := rfl
@[simp] theorem setUnit_netWait (c n : Nat) (x : USlot) : (setUnit c n x s).netWait = s.netWait := rfl
@[simp] theorem setUnit_records (c n : Nat) (x : USlot) : (setUnit c n x s).records = s.records := rfl
@[simp] theorem setUnit_layerRegs (c n : Nat) (x : USlot) : (setUnit c n x s).layerRegs = s.layerRegs := rfl
@[simp] theorem setUnit_epochAdd (c n : Nat) (x : USlot) : (setUnit c n x s).epochAdd = s.epochAdd := rfl
@[simp] theorem setUnit_epochRaised (c n : Nat) (x : USlot) : (setUnit c n x s).epochRaised = s.epochRaised := rfl
@[simp] theorem setUnit_rcpOwner (c n : Nat) (x : USlot) : (setUnit c n x s).rcpOwner = s.rcpOwner := rfl
@[simp] theorem setUnit_resrecs (c n : Nat) (x : USlot) : (setUnit c n x s).resrecs = s.resrecs := rfl
@[simp] theorem setUnit_logCoef (c n : Nat) (x : USlot) : (setUnit c n x s).logCoef = s.logCoef := rfl
@[simp] theorem setUnit_logTime (c n : Nat) (x : USlot) : (setUnit c n x s).logTime = s.logTime := rfl
@[simp] theorem setUnit_logWear (c n : Nat) (x : USlot) : (setUnit c n x s).logWear = s.logWear := rfl
@[simp] theorem setUnit_stks (c n : Nat) (x : USlot) : (setUnit c n x s).stks = s.stks := rfl
@[simp] theorem setUnit_ioRegs (c n : Nat) (x : USlot) : (setUnit c n x s).ioRegs = s.ioRegs := rfl
@[simp] theorem setUnit_outFail (c n : Nat) (x : USlot) : (setUnit c n x s).outFail = s.outFail := rfl
@[simp] theorem setUnit_strms (c n : Nat) (x : USlot) : (setUnit c n x s).strms = s.strms := rfl
@[simp] theorem setUnit_arrNo (c n : Nat) (x : USlot) : (setUnit c n x s).arrNo = s.arrNo := rfl
@[simp] theorem setUnit_results (c n : Nat) (x : USlot) : (setUnit c n x s).results = s.results := rfl
@[simp] theorem setUnit_events (c n : Nat) (x : USlot) : (setUnit c n x s).events = s.events := rfl
@[simp] theorem setUnit_twn (c n : Nat) (x : USlot) : (setUnit c n x s).twn = s.twn := rfl
@[simp] theorem setUnit_qmax (c n : Nat) (x : USlot) : (setUnit c n x s).qmax = s.qmax := rfl
@[simp] theorem setUnit_rrLast (c n : Nat) (x : USlot) : (setUnit c n x s).rrLast = s.rrLast := rfl
@[simp] theorem setUnit_limitAt (c n : Nat) (x : USlot) : (setUnit c n x s).limitAt = s.limitAt := rfl
@[simp] theorem setUnit_dz (c n : Nat) (x : USlot) : (setUnit c n x s).dz = s.dz := rfl
@[simp] theorem setUnit_admJob (c n : Nat) (x : USlot) : (setUnit c n x s).admJob = s.admJob := rfl
@[simp] theorem setUnit_opKey (c n : Nat) (x : USlot) : (setUnit c n x s).opKey = s.opKey := rfl
@[simp] theorem setUnit_ports (c n : Nat) (x : USlot) : (setUnit c n x s).ports = s.ports := rfl
@[simp] theorem setUnit_paths (c n : Nat) (x : USlot) : (setUnit c n x s).paths = s.paths := rfl
@[simp] theorem setUnit_peers (c n : Nat) (x : USlot) : (setUnit c n x s).peers = s.peers := rfl
@[simp] theorem setUnit_recalls (c n : Nat) (x : USlot) : (setUnit c n x s).recalls = s.recalls := rfl
@[simp] theorem setUnit_rtArm (c n : Nat) (x : USlot) : (setUnit c n x s).rtArm = s.rtArm := rfl
@[simp] theorem setUnit_ptpArm (c n : Nat) (x : USlot) : (setUnit c n x s).ptpArm = s.ptpArm := rfl
@[simp] theorem setUnit_ptpOfs (c n : Nat) (x : USlot) : (setUnit c n x s).ptpOfs = s.ptpOfs := rfl
@[simp] theorem setUnit_roll (c n : Nat) (x : USlot) : (setUnit c n x s).roll = s.roll := rfl
@[simp] theorem setUnit_ld (c n : Nat) (x : USlot) : (setUnit c n x s).ld = s.ld := rfl
@[simp] theorem setUnit_logFails (c n : Nat) (x : USlot) : (setUnit c n x s).logFails = s.logFails := rfl
@[simp] theorem setUnit_stress (c n : Nat) (x : USlot) : (setUnit c n x s).stress = s.stress := rfl
@[simp] theorem setUnit_dampAt (c n : Nat) (x : USlot) : (setUnit c n x s).dampAt = s.dampAt := rfl
@[simp] theorem setUnit_epochAt (c n : Nat) (x : USlot) : (setUnit c n x s).epochAt = s.epochAt := rfl
@[simp] theorem setUnit_refAt (c n : Nat) (x : USlot) : (setUnit c n x s).refAt = s.refAt := rfl
@[simp] theorem setUnit_meas (c n : Nat) (x : USlot) : (setUnit c n x s).meas = s.meas := rfl
@[simp] theorem setUnit_boot (c n : Nat) (x : USlot) : (setUnit c n x s).boot = s.boot := rfl
@[simp] theorem setUnit_twinDel (c n : Nat) (x : USlot) : (setUnit c n x s).twinDel = s.twinDel := rfl
@[simp] theorem setUnit_enabled (c n : Nat) (x : USlot) : (setUnit c n x s).enabled = s.enabled := rfl
@[simp] theorem setUnit_svcLow (c n : Nat) (x : USlot) : (setUnit c n x s).svcLow = s.svcLow := rfl
@[simp] theorem setUnit_sresp (c n : Nat) (x : USlot) : (setUnit c n x s).sresp = s.sresp := rfl
@[simp] theorem setUnit_out (c n : Nat) (x : USlot) : (setUnit c n x s).out = s.out := rfl
@[simp] theorem setUnit_pending (c n : Nat) (x : USlot) : (setUnit c n x s).pending = s.pending := rfl

-- setClu
@[simp] theorem setClu_free (c : Nat) (x : Cluster) : (setClu c x s).free = s.free := rfl
@[simp] theorem setClu_rack (c : Nat) (x : Cluster) : (setClu c x s).rack = s.rack := rfl
@[simp] theorem setClu_regs (c : Nat) (x : Cluster) : (setClu c x s).regs = s.regs := rfl
@[simp] theorem setClu_latch (c : Nat) (x : Cluster) : (setClu c x s).latch = s.latch := rfl
@[simp] theorem setClu_locks (c : Nat) (x : Cluster) : (setClu c x s).locks = s.locks := rfl
@[simp] theorem setClu_evHold (c : Nat) (x : Cluster) : (setClu c x s).evHold = s.evHold := rfl
@[simp] theorem setClu_whiDue (c : Nat) (x : Cluster) : (setClu c x s).whiDue = s.whiDue := rfl
@[simp] theorem setClu_whiWait (c : Nat) (x : Cluster) : (setClu c x s).whiWait = s.whiWait := rfl
@[simp] theorem setClu_ovfNext (c : Nat) (x : Cluster) : (setClu c x s).ovfNext = s.ovfNext := rfl
@[simp] theorem setClu_snapAt (c : Nat) (x : Cluster) : (setClu c x s).snapAt = s.snapAt := rfl
@[simp] theorem setClu_units (c : Nat) (x : Cluster) : (setClu c x s).units = s.units := rfl
theorem setClu_clus (c : Nat) (x : Cluster) : (setClu c x s).clus = SMap.set Cluster.empty s.clus c x := rfl
@[simp] theorem setClu_rgns (c : Nat) (x : Cluster) : (setClu c x s).rgns = s.rgns := rfl
@[simp] theorem setClu_mem (c : Nat) (x : Cluster) : (setClu c x s).mem = s.mem := rfl
@[simp] theorem setClu_slots (c : Nat) (x : Cluster) : (setClu c x s).slots = s.slots := rfl
@[simp] theorem setClu_suspects (c : Nat) (x : Cluster) : (setClu c x s).suspects = s.suspects := rfl
@[simp] theorem setClu_failRecs (c : Nat) (x : Cluster) : (setClu c x s).failRecs = s.failRecs := rfl
@[simp] theorem setClu_downs (c : Nat) (x : Cluster) : (setClu c x s).downs = s.downs := rfl
@[simp] theorem setClu_netPath (c : Nat) (x : Cluster) : (setClu c x s).netPath = s.netPath := rfl
@[simp] theorem setClu_netFails (c : Nat) (x : Cluster) : (setClu c x s).netFails = s.netFails := rfl
@[simp] theorem setClu_netWait (c : Nat) (x : Cluster) : (setClu c x s).netWait = s.netWait := rfl
@[simp] theorem setClu_records (c : Nat) (x : Cluster) : (setClu c x s).records = s.records := rfl
@[simp] theorem setClu_layerRegs (c : Nat) (x : Cluster) : (setClu c x s).layerRegs = s.layerRegs := rfl
@[simp] theorem setClu_epochAdd (c : Nat) (x : Cluster) : (setClu c x s).epochAdd = s.epochAdd := rfl
@[simp] theorem setClu_epochRaised (c : Nat) (x : Cluster) : (setClu c x s).epochRaised = s.epochRaised := rfl
@[simp] theorem setClu_rcpOwner (c : Nat) (x : Cluster) : (setClu c x s).rcpOwner = s.rcpOwner := rfl
@[simp] theorem setClu_resrecs (c : Nat) (x : Cluster) : (setClu c x s).resrecs = s.resrecs := rfl
@[simp] theorem setClu_logCoef (c : Nat) (x : Cluster) : (setClu c x s).logCoef = s.logCoef := rfl
@[simp] theorem setClu_logTime (c : Nat) (x : Cluster) : (setClu c x s).logTime = s.logTime := rfl
@[simp] theorem setClu_logWear (c : Nat) (x : Cluster) : (setClu c x s).logWear = s.logWear := rfl
@[simp] theorem setClu_stks (c : Nat) (x : Cluster) : (setClu c x s).stks = s.stks := rfl
@[simp] theorem setClu_ioRegs (c : Nat) (x : Cluster) : (setClu c x s).ioRegs = s.ioRegs := rfl
@[simp] theorem setClu_outFail (c : Nat) (x : Cluster) : (setClu c x s).outFail = s.outFail := rfl
@[simp] theorem setClu_strms (c : Nat) (x : Cluster) : (setClu c x s).strms = s.strms := rfl
@[simp] theorem setClu_arrNo (c : Nat) (x : Cluster) : (setClu c x s).arrNo = s.arrNo := rfl
@[simp] theorem setClu_results (c : Nat) (x : Cluster) : (setClu c x s).results = s.results := rfl
@[simp] theorem setClu_events (c : Nat) (x : Cluster) : (setClu c x s).events = s.events := rfl
@[simp] theorem setClu_twn (c : Nat) (x : Cluster) : (setClu c x s).twn = s.twn := rfl
@[simp] theorem setClu_qmax (c : Nat) (x : Cluster) : (setClu c x s).qmax = s.qmax := rfl
@[simp] theorem setClu_rrLast (c : Nat) (x : Cluster) : (setClu c x s).rrLast = s.rrLast := rfl
@[simp] theorem setClu_limitAt (c : Nat) (x : Cluster) : (setClu c x s).limitAt = s.limitAt := rfl
@[simp] theorem setClu_dz (c : Nat) (x : Cluster) : (setClu c x s).dz = s.dz := rfl
@[simp] theorem setClu_admJob (c : Nat) (x : Cluster) : (setClu c x s).admJob = s.admJob := rfl
@[simp] theorem setClu_opKey (c : Nat) (x : Cluster) : (setClu c x s).opKey = s.opKey := rfl
@[simp] theorem setClu_ports (c : Nat) (x : Cluster) : (setClu c x s).ports = s.ports := rfl
@[simp] theorem setClu_paths (c : Nat) (x : Cluster) : (setClu c x s).paths = s.paths := rfl
@[simp] theorem setClu_peers (c : Nat) (x : Cluster) : (setClu c x s).peers = s.peers := rfl
@[simp] theorem setClu_recalls (c : Nat) (x : Cluster) : (setClu c x s).recalls = s.recalls := rfl
@[simp] theorem setClu_rtArm (c : Nat) (x : Cluster) : (setClu c x s).rtArm = s.rtArm := rfl
@[simp] theorem setClu_ptpArm (c : Nat) (x : Cluster) : (setClu c x s).ptpArm = s.ptpArm := rfl
@[simp] theorem setClu_ptpOfs (c : Nat) (x : Cluster) : (setClu c x s).ptpOfs = s.ptpOfs := rfl
@[simp] theorem setClu_roll (c : Nat) (x : Cluster) : (setClu c x s).roll = s.roll := rfl
@[simp] theorem setClu_ld (c : Nat) (x : Cluster) : (setClu c x s).ld = s.ld := rfl
@[simp] theorem setClu_logFails (c : Nat) (x : Cluster) : (setClu c x s).logFails = s.logFails := rfl
@[simp] theorem setClu_stress (c : Nat) (x : Cluster) : (setClu c x s).stress = s.stress := rfl
@[simp] theorem setClu_dampAt (c : Nat) (x : Cluster) : (setClu c x s).dampAt = s.dampAt := rfl
@[simp] theorem setClu_epochAt (c : Nat) (x : Cluster) : (setClu c x s).epochAt = s.epochAt := rfl
@[simp] theorem setClu_refAt (c : Nat) (x : Cluster) : (setClu c x s).refAt = s.refAt := rfl
@[simp] theorem setClu_meas (c : Nat) (x : Cluster) : (setClu c x s).meas = s.meas := rfl
@[simp] theorem setClu_boot (c : Nat) (x : Cluster) : (setClu c x s).boot = s.boot := rfl
@[simp] theorem setClu_twinDel (c : Nat) (x : Cluster) : (setClu c x s).twinDel = s.twinDel := rfl
@[simp] theorem setClu_enabled (c : Nat) (x : Cluster) : (setClu c x s).enabled = s.enabled := rfl
@[simp] theorem setClu_svcLow (c : Nat) (x : Cluster) : (setClu c x s).svcLow = s.svcLow := rfl
@[simp] theorem setClu_sresp (c : Nat) (x : Cluster) : (setClu c x s).sresp = s.sresp := rfl
@[simp] theorem setClu_out (c : Nat) (x : Cluster) : (setClu c x s).out = s.out := rfl
@[simp] theorem setClu_pending (c : Nat) (x : Cluster) : (setClu c x s).pending = s.pending := rfl

-- setRgn
@[simp] theorem setRgn_free (r : Nat) (x : Region) : (setRgn r x s).free = s.free := rfl
@[simp] theorem setRgn_rack (r : Nat) (x : Region) : (setRgn r x s).rack = s.rack := rfl
@[simp] theorem setRgn_regs (r : Nat) (x : Region) : (setRgn r x s).regs = s.regs := rfl
@[simp] theorem setRgn_latch (r : Nat) (x : Region) : (setRgn r x s).latch = s.latch := rfl
@[simp] theorem setRgn_locks (r : Nat) (x : Region) : (setRgn r x s).locks = s.locks := rfl
@[simp] theorem setRgn_evHold (r : Nat) (x : Region) : (setRgn r x s).evHold = s.evHold := rfl
@[simp] theorem setRgn_whiDue (r : Nat) (x : Region) : (setRgn r x s).whiDue = s.whiDue := rfl
@[simp] theorem setRgn_whiWait (r : Nat) (x : Region) : (setRgn r x s).whiWait = s.whiWait := rfl
@[simp] theorem setRgn_ovfNext (r : Nat) (x : Region) : (setRgn r x s).ovfNext = s.ovfNext := rfl
@[simp] theorem setRgn_snapAt (r : Nat) (x : Region) : (setRgn r x s).snapAt = s.snapAt := rfl
@[simp] theorem setRgn_units (r : Nat) (x : Region) : (setRgn r x s).units = s.units := rfl
@[simp] theorem setRgn_clus (r : Nat) (x : Region) : (setRgn r x s).clus = s.clus := rfl
theorem setRgn_rgns (r : Nat) (x : Region) : (setRgn r x s).rgns = SMap.set Region.empty s.rgns r x := rfl
@[simp] theorem setRgn_mem (r : Nat) (x : Region) : (setRgn r x s).mem = s.mem := rfl
@[simp] theorem setRgn_slots (r : Nat) (x : Region) : (setRgn r x s).slots = s.slots := rfl
@[simp] theorem setRgn_suspects (r : Nat) (x : Region) : (setRgn r x s).suspects = s.suspects := rfl
@[simp] theorem setRgn_failRecs (r : Nat) (x : Region) : (setRgn r x s).failRecs = s.failRecs := rfl
@[simp] theorem setRgn_downs (r : Nat) (x : Region) : (setRgn r x s).downs = s.downs := rfl
@[simp] theorem setRgn_netPath (r : Nat) (x : Region) : (setRgn r x s).netPath = s.netPath := rfl
@[simp] theorem setRgn_netFails (r : Nat) (x : Region) : (setRgn r x s).netFails = s.netFails := rfl
@[simp] theorem setRgn_netWait (r : Nat) (x : Region) : (setRgn r x s).netWait = s.netWait := rfl
@[simp] theorem setRgn_records (r : Nat) (x : Region) : (setRgn r x s).records = s.records := rfl
@[simp] theorem setRgn_layerRegs (r : Nat) (x : Region) : (setRgn r x s).layerRegs = s.layerRegs := rfl
@[simp] theorem setRgn_epochAdd (r : Nat) (x : Region) : (setRgn r x s).epochAdd = s.epochAdd := rfl
@[simp] theorem setRgn_epochRaised (r : Nat) (x : Region) : (setRgn r x s).epochRaised = s.epochRaised := rfl
@[simp] theorem setRgn_rcpOwner (r : Nat) (x : Region) : (setRgn r x s).rcpOwner = s.rcpOwner := rfl
@[simp] theorem setRgn_resrecs (r : Nat) (x : Region) : (setRgn r x s).resrecs = s.resrecs := rfl
@[simp] theorem setRgn_logCoef (r : Nat) (x : Region) : (setRgn r x s).logCoef = s.logCoef := rfl
@[simp] theorem setRgn_logTime (r : Nat) (x : Region) : (setRgn r x s).logTime = s.logTime := rfl
@[simp] theorem setRgn_logWear (r : Nat) (x : Region) : (setRgn r x s).logWear = s.logWear := rfl
@[simp] theorem setRgn_stks (r : Nat) (x : Region) : (setRgn r x s).stks = s.stks := rfl
@[simp] theorem setRgn_ioRegs (r : Nat) (x : Region) : (setRgn r x s).ioRegs = s.ioRegs := rfl
@[simp] theorem setRgn_outFail (r : Nat) (x : Region) : (setRgn r x s).outFail = s.outFail := rfl
@[simp] theorem setRgn_strms (r : Nat) (x : Region) : (setRgn r x s).strms = s.strms := rfl
@[simp] theorem setRgn_arrNo (r : Nat) (x : Region) : (setRgn r x s).arrNo = s.arrNo := rfl
@[simp] theorem setRgn_results (r : Nat) (x : Region) : (setRgn r x s).results = s.results := rfl
@[simp] theorem setRgn_events (r : Nat) (x : Region) : (setRgn r x s).events = s.events := rfl
@[simp] theorem setRgn_twn (r : Nat) (x : Region) : (setRgn r x s).twn = s.twn := rfl
@[simp] theorem setRgn_qmax (r : Nat) (x : Region) : (setRgn r x s).qmax = s.qmax := rfl
@[simp] theorem setRgn_rrLast (r : Nat) (x : Region) : (setRgn r x s).rrLast = s.rrLast := rfl
@[simp] theorem setRgn_limitAt (r : Nat) (x : Region) : (setRgn r x s).limitAt = s.limitAt := rfl
@[simp] theorem setRgn_dz (r : Nat) (x : Region) : (setRgn r x s).dz = s.dz := rfl
@[simp] theorem setRgn_admJob (r : Nat) (x : Region) : (setRgn r x s).admJob = s.admJob := rfl
@[simp] theorem setRgn_opKey (r : Nat) (x : Region) : (setRgn r x s).opKey = s.opKey := rfl
@[simp] theorem setRgn_ports (r : Nat) (x : Region) : (setRgn r x s).ports = s.ports := rfl
@[simp] theorem setRgn_paths (r : Nat) (x : Region) : (setRgn r x s).paths = s.paths := rfl
@[simp] theorem setRgn_peers (r : Nat) (x : Region) : (setRgn r x s).peers = s.peers := rfl
@[simp] theorem setRgn_recalls (r : Nat) (x : Region) : (setRgn r x s).recalls = s.recalls := rfl
@[simp] theorem setRgn_rtArm (r : Nat) (x : Region) : (setRgn r x s).rtArm = s.rtArm := rfl
@[simp] theorem setRgn_ptpArm (r : Nat) (x : Region) : (setRgn r x s).ptpArm = s.ptpArm := rfl
@[simp] theorem setRgn_ptpOfs (r : Nat) (x : Region) : (setRgn r x s).ptpOfs = s.ptpOfs := rfl
@[simp] theorem setRgn_roll (r : Nat) (x : Region) : (setRgn r x s).roll = s.roll := rfl
@[simp] theorem setRgn_ld (r : Nat) (x : Region) : (setRgn r x s).ld = s.ld := rfl
@[simp] theorem setRgn_logFails (r : Nat) (x : Region) : (setRgn r x s).logFails = s.logFails := rfl
@[simp] theorem setRgn_stress (r : Nat) (x : Region) : (setRgn r x s).stress = s.stress := rfl
@[simp] theorem setRgn_dampAt (r : Nat) (x : Region) : (setRgn r x s).dampAt = s.dampAt := rfl
@[simp] theorem setRgn_epochAt (r : Nat) (x : Region) : (setRgn r x s).epochAt = s.epochAt := rfl
@[simp] theorem setRgn_refAt (r : Nat) (x : Region) : (setRgn r x s).refAt = s.refAt := rfl
@[simp] theorem setRgn_meas (r : Nat) (x : Region) : (setRgn r x s).meas = s.meas := rfl
@[simp] theorem setRgn_boot (r : Nat) (x : Region) : (setRgn r x s).boot = s.boot := rfl
@[simp] theorem setRgn_twinDel (r : Nat) (x : Region) : (setRgn r x s).twinDel = s.twinDel := rfl
@[simp] theorem setRgn_enabled (r : Nat) (x : Region) : (setRgn r x s).enabled = s.enabled := rfl
@[simp] theorem setRgn_svcLow (r : Nat) (x : Region) : (setRgn r x s).svcLow = s.svcLow := rfl
@[simp] theorem setRgn_sresp (r : Nat) (x : Region) : (setRgn r x s).sresp = s.sresp := rfl
@[simp] theorem setRgn_out (r : Nat) (x : Region) : (setRgn r x s).out = s.out := rfl
@[simp] theorem setRgn_pending (r : Nat) (x : Region) : (setRgn r x s).pending = s.pending := rfl

-- locPut
@[simp] theorem locPut_free (n a : Nat) (b : Byte) : (locPut n a b s).free = s.free := rfl
@[simp] theorem locPut_rack (n a : Nat) (b : Byte) : (locPut n a b s).rack = s.rack := rfl
@[simp] theorem locPut_regs (n a : Nat) (b : Byte) : (locPut n a b s).regs = s.regs := rfl
@[simp] theorem locPut_latch (n a : Nat) (b : Byte) : (locPut n a b s).latch = s.latch := rfl
@[simp] theorem locPut_locks (n a : Nat) (b : Byte) : (locPut n a b s).locks = s.locks := rfl
@[simp] theorem locPut_evHold (n a : Nat) (b : Byte) : (locPut n a b s).evHold = s.evHold := rfl
@[simp] theorem locPut_whiDue (n a : Nat) (b : Byte) : (locPut n a b s).whiDue = s.whiDue := rfl
@[simp] theorem locPut_whiWait (n a : Nat) (b : Byte) : (locPut n a b s).whiWait = s.whiWait := rfl
@[simp] theorem locPut_ovfNext (n a : Nat) (b : Byte) : (locPut n a b s).ovfNext = s.ovfNext := rfl
@[simp] theorem locPut_snapAt (n a : Nat) (b : Byte) : (locPut n a b s).snapAt = s.snapAt := rfl
@[simp] theorem locPut_units (n a : Nat) (b : Byte) : (locPut n a b s).units = s.units := rfl
@[simp] theorem locPut_clus (n a : Nat) (b : Byte) : (locPut n a b s).clus = s.clus := rfl
@[simp] theorem locPut_rgns (n a : Nat) (b : Byte) : (locPut n a b s).rgns = s.rgns := rfl
theorem locPut_mem (n a : Nat) (b : Byte) : (locPut n a b s).mem = SMap.set 0 s.mem (memKey n a) b := rfl
@[simp] theorem locPut_slots (n a : Nat) (b : Byte) : (locPut n a b s).slots = s.slots := rfl
@[simp] theorem locPut_suspects (n a : Nat) (b : Byte) : (locPut n a b s).suspects = s.suspects := rfl
@[simp] theorem locPut_failRecs (n a : Nat) (b : Byte) : (locPut n a b s).failRecs = s.failRecs := rfl
@[simp] theorem locPut_downs (n a : Nat) (b : Byte) : (locPut n a b s).downs = s.downs := rfl
@[simp] theorem locPut_netPath (n a : Nat) (b : Byte) : (locPut n a b s).netPath = s.netPath := rfl
@[simp] theorem locPut_netFails (n a : Nat) (b : Byte) : (locPut n a b s).netFails = s.netFails := rfl
@[simp] theorem locPut_netWait (n a : Nat) (b : Byte) : (locPut n a b s).netWait = s.netWait := rfl
@[simp] theorem locPut_records (n a : Nat) (b : Byte) : (locPut n a b s).records = s.records := rfl
@[simp] theorem locPut_layerRegs (n a : Nat) (b : Byte) : (locPut n a b s).layerRegs = s.layerRegs := rfl
@[simp] theorem locPut_epochAdd (n a : Nat) (b : Byte) : (locPut n a b s).epochAdd = s.epochAdd := rfl
@[simp] theorem locPut_epochRaised (n a : Nat) (b : Byte) : (locPut n a b s).epochRaised = s.epochRaised := rfl
@[simp] theorem locPut_rcpOwner (n a : Nat) (b : Byte) : (locPut n a b s).rcpOwner = s.rcpOwner := rfl
@[simp] theorem locPut_resrecs (n a : Nat) (b : Byte) : (locPut n a b s).resrecs = s.resrecs := rfl
@[simp] theorem locPut_logCoef (n a : Nat) (b : Byte) : (locPut n a b s).logCoef = s.logCoef := rfl
@[simp] theorem locPut_logTime (n a : Nat) (b : Byte) : (locPut n a b s).logTime = s.logTime := rfl
@[simp] theorem locPut_logWear (n a : Nat) (b : Byte) : (locPut n a b s).logWear = s.logWear := rfl
@[simp] theorem locPut_stks (n a : Nat) (b : Byte) : (locPut n a b s).stks = s.stks := rfl
@[simp] theorem locPut_ioRegs (n a : Nat) (b : Byte) : (locPut n a b s).ioRegs = s.ioRegs := rfl
@[simp] theorem locPut_outFail (n a : Nat) (b : Byte) : (locPut n a b s).outFail = s.outFail := rfl
@[simp] theorem locPut_strms (n a : Nat) (b : Byte) : (locPut n a b s).strms = s.strms := rfl
@[simp] theorem locPut_arrNo (n a : Nat) (b : Byte) : (locPut n a b s).arrNo = s.arrNo := rfl
@[simp] theorem locPut_results (n a : Nat) (b : Byte) : (locPut n a b s).results = s.results := rfl
@[simp] theorem locPut_events (n a : Nat) (b : Byte) : (locPut n a b s).events = s.events := rfl
@[simp] theorem locPut_twn (n a : Nat) (b : Byte) : (locPut n a b s).twn = s.twn := rfl
@[simp] theorem locPut_qmax (n a : Nat) (b : Byte) : (locPut n a b s).qmax = s.qmax := rfl
@[simp] theorem locPut_rrLast (n a : Nat) (b : Byte) : (locPut n a b s).rrLast = s.rrLast := rfl
@[simp] theorem locPut_limitAt (n a : Nat) (b : Byte) : (locPut n a b s).limitAt = s.limitAt := rfl
@[simp] theorem locPut_dz (n a : Nat) (b : Byte) : (locPut n a b s).dz = s.dz := rfl
@[simp] theorem locPut_admJob (n a : Nat) (b : Byte) : (locPut n a b s).admJob = s.admJob := rfl
@[simp] theorem locPut_opKey (n a : Nat) (b : Byte) : (locPut n a b s).opKey = s.opKey := rfl
@[simp] theorem locPut_ports (n a : Nat) (b : Byte) : (locPut n a b s).ports = s.ports := rfl
@[simp] theorem locPut_paths (n a : Nat) (b : Byte) : (locPut n a b s).paths = s.paths := rfl
@[simp] theorem locPut_peers (n a : Nat) (b : Byte) : (locPut n a b s).peers = s.peers := rfl
@[simp] theorem locPut_recalls (n a : Nat) (b : Byte) : (locPut n a b s).recalls = s.recalls := rfl
@[simp] theorem locPut_rtArm (n a : Nat) (b : Byte) : (locPut n a b s).rtArm = s.rtArm := rfl
@[simp] theorem locPut_ptpArm (n a : Nat) (b : Byte) : (locPut n a b s).ptpArm = s.ptpArm := rfl
@[simp] theorem locPut_ptpOfs (n a : Nat) (b : Byte) : (locPut n a b s).ptpOfs = s.ptpOfs := rfl
@[simp] theorem locPut_roll (n a : Nat) (b : Byte) : (locPut n a b s).roll = s.roll := rfl
@[simp] theorem locPut_ld (n a : Nat) (b : Byte) : (locPut n a b s).ld = s.ld := rfl
@[simp] theorem locPut_logFails (n a : Nat) (b : Byte) : (locPut n a b s).logFails = s.logFails := rfl
@[simp] theorem locPut_stress (n a : Nat) (b : Byte) : (locPut n a b s).stress = s.stress := rfl
@[simp] theorem locPut_dampAt (n a : Nat) (b : Byte) : (locPut n a b s).dampAt = s.dampAt := rfl
@[simp] theorem locPut_epochAt (n a : Nat) (b : Byte) : (locPut n a b s).epochAt = s.epochAt := rfl
@[simp] theorem locPut_refAt (n a : Nat) (b : Byte) : (locPut n a b s).refAt = s.refAt := rfl
@[simp] theorem locPut_meas (n a : Nat) (b : Byte) : (locPut n a b s).meas = s.meas := rfl
@[simp] theorem locPut_boot (n a : Nat) (b : Byte) : (locPut n a b s).boot = s.boot := rfl
@[simp] theorem locPut_twinDel (n a : Nat) (b : Byte) : (locPut n a b s).twinDel = s.twinDel := rfl
@[simp] theorem locPut_enabled (n a : Nat) (b : Byte) : (locPut n a b s).enabled = s.enabled := rfl
@[simp] theorem locPut_svcLow (n a : Nat) (b : Byte) : (locPut n a b s).svcLow = s.svcLow := rfl
@[simp] theorem locPut_sresp (n a : Nat) (b : Byte) : (locPut n a b s).sresp = s.sresp := rfl
@[simp] theorem locPut_out (n a : Nat) (b : Byte) : (locPut n a b s).out = s.out := rfl
@[simp] theorem locPut_pending (n a : Nat) (b : Byte) : (locPut n a b s).pending = s.pending := rfl

-- setSlot
@[simp] theorem setSlot_free (n : Nat) (x : Slot) : (setSlot n x s).free = s.free := rfl
@[simp] theorem setSlot_rack (n : Nat) (x : Slot) : (setSlot n x s).rack = s.rack := rfl
@[simp] theorem setSlot_regs (n : Nat) (x : Slot) : (setSlot n x s).regs = s.regs := rfl
@[simp] theorem setSlot_latch (n : Nat) (x : Slot) : (setSlot n x s).latch = s.latch := rfl
@[simp] theorem setSlot_locks (n : Nat) (x : Slot) : (setSlot n x s).locks = s.locks := rfl
@[simp] theorem setSlot_evHold (n : Nat) (x : Slot) : (setSlot n x s).evHold = s.evHold := rfl
@[simp] theorem setSlot_whiDue (n : Nat) (x : Slot) : (setSlot n x s).whiDue = s.whiDue := rfl
@[simp] theorem setSlot_whiWait (n : Nat) (x : Slot) : (setSlot n x s).whiWait = s.whiWait := rfl
@[simp] theorem setSlot_ovfNext (n : Nat) (x : Slot) : (setSlot n x s).ovfNext = s.ovfNext := rfl
@[simp] theorem setSlot_snapAt (n : Nat) (x : Slot) : (setSlot n x s).snapAt = s.snapAt := rfl
@[simp] theorem setSlot_units (n : Nat) (x : Slot) : (setSlot n x s).units = s.units := rfl
@[simp] theorem setSlot_clus (n : Nat) (x : Slot) : (setSlot n x s).clus = s.clus := rfl
@[simp] theorem setSlot_rgns (n : Nat) (x : Slot) : (setSlot n x s).rgns = s.rgns := rfl
@[simp] theorem setSlot_mem (n : Nat) (x : Slot) : (setSlot n x s).mem = s.mem := rfl
theorem setSlot_slots (n : Nat) (x : Slot) : (setSlot n x s).slots = SMap.set Slot.vacant s.slots n x := rfl
@[simp] theorem setSlot_suspects (n : Nat) (x : Slot) : (setSlot n x s).suspects = s.suspects := rfl
@[simp] theorem setSlot_failRecs (n : Nat) (x : Slot) : (setSlot n x s).failRecs = s.failRecs := rfl
@[simp] theorem setSlot_downs (n : Nat) (x : Slot) : (setSlot n x s).downs = s.downs := rfl
@[simp] theorem setSlot_netPath (n : Nat) (x : Slot) : (setSlot n x s).netPath = s.netPath := rfl
@[simp] theorem setSlot_netFails (n : Nat) (x : Slot) : (setSlot n x s).netFails = s.netFails := rfl
@[simp] theorem setSlot_netWait (n : Nat) (x : Slot) : (setSlot n x s).netWait = s.netWait := rfl
@[simp] theorem setSlot_records (n : Nat) (x : Slot) : (setSlot n x s).records = s.records := rfl
@[simp] theorem setSlot_layerRegs (n : Nat) (x : Slot) : (setSlot n x s).layerRegs = s.layerRegs := rfl
@[simp] theorem setSlot_epochAdd (n : Nat) (x : Slot) : (setSlot n x s).epochAdd = s.epochAdd := rfl
@[simp] theorem setSlot_epochRaised (n : Nat) (x : Slot) : (setSlot n x s).epochRaised = s.epochRaised := rfl
@[simp] theorem setSlot_rcpOwner (n : Nat) (x : Slot) : (setSlot n x s).rcpOwner = s.rcpOwner := rfl
@[simp] theorem setSlot_resrecs (n : Nat) (x : Slot) : (setSlot n x s).resrecs = s.resrecs := rfl
@[simp] theorem setSlot_logCoef (n : Nat) (x : Slot) : (setSlot n x s).logCoef = s.logCoef := rfl
@[simp] theorem setSlot_logTime (n : Nat) (x : Slot) : (setSlot n x s).logTime = s.logTime := rfl
@[simp] theorem setSlot_logWear (n : Nat) (x : Slot) : (setSlot n x s).logWear = s.logWear := rfl
@[simp] theorem setSlot_stks (n : Nat) (x : Slot) : (setSlot n x s).stks = s.stks := rfl
@[simp] theorem setSlot_ioRegs (n : Nat) (x : Slot) : (setSlot n x s).ioRegs = s.ioRegs := rfl
@[simp] theorem setSlot_outFail (n : Nat) (x : Slot) : (setSlot n x s).outFail = s.outFail := rfl
@[simp] theorem setSlot_strms (n : Nat) (x : Slot) : (setSlot n x s).strms = s.strms := rfl
@[simp] theorem setSlot_arrNo (n : Nat) (x : Slot) : (setSlot n x s).arrNo = s.arrNo := rfl
@[simp] theorem setSlot_results (n : Nat) (x : Slot) : (setSlot n x s).results = s.results := rfl
@[simp] theorem setSlot_events (n : Nat) (x : Slot) : (setSlot n x s).events = s.events := rfl
@[simp] theorem setSlot_twn (n : Nat) (x : Slot) : (setSlot n x s).twn = s.twn := rfl
@[simp] theorem setSlot_qmax (n : Nat) (x : Slot) : (setSlot n x s).qmax = s.qmax := rfl
@[simp] theorem setSlot_rrLast (n : Nat) (x : Slot) : (setSlot n x s).rrLast = s.rrLast := rfl
@[simp] theorem setSlot_limitAt (n : Nat) (x : Slot) : (setSlot n x s).limitAt = s.limitAt := rfl
@[simp] theorem setSlot_dz (n : Nat) (x : Slot) : (setSlot n x s).dz = s.dz := rfl
@[simp] theorem setSlot_admJob (n : Nat) (x : Slot) : (setSlot n x s).admJob = s.admJob := rfl
@[simp] theorem setSlot_opKey (n : Nat) (x : Slot) : (setSlot n x s).opKey = s.opKey := rfl
@[simp] theorem setSlot_ports (n : Nat) (x : Slot) : (setSlot n x s).ports = s.ports := rfl
@[simp] theorem setSlot_paths (n : Nat) (x : Slot) : (setSlot n x s).paths = s.paths := rfl
@[simp] theorem setSlot_peers (n : Nat) (x : Slot) : (setSlot n x s).peers = s.peers := rfl
@[simp] theorem setSlot_recalls (n : Nat) (x : Slot) : (setSlot n x s).recalls = s.recalls := rfl
@[simp] theorem setSlot_rtArm (n : Nat) (x : Slot) : (setSlot n x s).rtArm = s.rtArm := rfl
@[simp] theorem setSlot_ptpArm (n : Nat) (x : Slot) : (setSlot n x s).ptpArm = s.ptpArm := rfl
@[simp] theorem setSlot_ptpOfs (n : Nat) (x : Slot) : (setSlot n x s).ptpOfs = s.ptpOfs := rfl
@[simp] theorem setSlot_roll (n : Nat) (x : Slot) : (setSlot n x s).roll = s.roll := rfl
@[simp] theorem setSlot_ld (n : Nat) (x : Slot) : (setSlot n x s).ld = s.ld := rfl
@[simp] theorem setSlot_logFails (n : Nat) (x : Slot) : (setSlot n x s).logFails = s.logFails := rfl
@[simp] theorem setSlot_stress (n : Nat) (x : Slot) : (setSlot n x s).stress = s.stress := rfl
@[simp] theorem setSlot_dampAt (n : Nat) (x : Slot) : (setSlot n x s).dampAt = s.dampAt := rfl
@[simp] theorem setSlot_epochAt (n : Nat) (x : Slot) : (setSlot n x s).epochAt = s.epochAt := rfl
@[simp] theorem setSlot_refAt (n : Nat) (x : Slot) : (setSlot n x s).refAt = s.refAt := rfl
@[simp] theorem setSlot_meas (n : Nat) (x : Slot) : (setSlot n x s).meas = s.meas := rfl
@[simp] theorem setSlot_boot (n : Nat) (x : Slot) : (setSlot n x s).boot = s.boot := rfl
@[simp] theorem setSlot_twinDel (n : Nat) (x : Slot) : (setSlot n x s).twinDel = s.twinDel := rfl
@[simp] theorem setSlot_enabled (n : Nat) (x : Slot) : (setSlot n x s).enabled = s.enabled := rfl
@[simp] theorem setSlot_svcLow (n : Nat) (x : Slot) : (setSlot n x s).svcLow = s.svcLow := rfl
@[simp] theorem setSlot_sresp (n : Nat) (x : Slot) : (setSlot n x s).sresp = s.sresp := rfl
@[simp] theorem setSlot_out (n : Nat) (x : Slot) : (setSlot n x s).out = s.out := rfl
@[simp] theorem setSlot_pending (n : Nat) (x : Slot) : (setSlot n x s).pending = s.pending := rfl

-- setPort
@[simp] theorem setPort_free (p : Nat) (x : Port) : (setPort p x s).free = s.free := rfl
@[simp] theorem setPort_rack (p : Nat) (x : Port) : (setPort p x s).rack = s.rack := rfl
@[simp] theorem setPort_regs (p : Nat) (x : Port) : (setPort p x s).regs = s.regs := rfl
@[simp] theorem setPort_latch (p : Nat) (x : Port) : (setPort p x s).latch = s.latch := rfl
@[simp] theorem setPort_locks (p : Nat) (x : Port) : (setPort p x s).locks = s.locks := rfl
@[simp] theorem setPort_evHold (p : Nat) (x : Port) : (setPort p x s).evHold = s.evHold := rfl
@[simp] theorem setPort_whiDue (p : Nat) (x : Port) : (setPort p x s).whiDue = s.whiDue := rfl
@[simp] theorem setPort_whiWait (p : Nat) (x : Port) : (setPort p x s).whiWait = s.whiWait := rfl
@[simp] theorem setPort_ovfNext (p : Nat) (x : Port) : (setPort p x s).ovfNext = s.ovfNext := rfl
@[simp] theorem setPort_snapAt (p : Nat) (x : Port) : (setPort p x s).snapAt = s.snapAt := rfl
@[simp] theorem setPort_units (p : Nat) (x : Port) : (setPort p x s).units = s.units := rfl
@[simp] theorem setPort_clus (p : Nat) (x : Port) : (setPort p x s).clus = s.clus := rfl
@[simp] theorem setPort_rgns (p : Nat) (x : Port) : (setPort p x s).rgns = s.rgns := rfl
@[simp] theorem setPort_mem (p : Nat) (x : Port) : (setPort p x s).mem = s.mem := rfl
@[simp] theorem setPort_slots (p : Nat) (x : Port) : (setPort p x s).slots = s.slots := rfl
@[simp] theorem setPort_suspects (p : Nat) (x : Port) : (setPort p x s).suspects = s.suspects := rfl
@[simp] theorem setPort_failRecs (p : Nat) (x : Port) : (setPort p x s).failRecs = s.failRecs := rfl
@[simp] theorem setPort_downs (p : Nat) (x : Port) : (setPort p x s).downs = s.downs := rfl
@[simp] theorem setPort_netPath (p : Nat) (x : Port) : (setPort p x s).netPath = s.netPath := rfl
@[simp] theorem setPort_netFails (p : Nat) (x : Port) : (setPort p x s).netFails = s.netFails := rfl
@[simp] theorem setPort_netWait (p : Nat) (x : Port) : (setPort p x s).netWait = s.netWait := rfl
@[simp] theorem setPort_records (p : Nat) (x : Port) : (setPort p x s).records = s.records := rfl
@[simp] theorem setPort_layerRegs (p : Nat) (x : Port) : (setPort p x s).layerRegs = s.layerRegs := rfl
@[simp] theorem setPort_epochAdd (p : Nat) (x : Port) : (setPort p x s).epochAdd = s.epochAdd := rfl
@[simp] theorem setPort_epochRaised (p : Nat) (x : Port) : (setPort p x s).epochRaised = s.epochRaised := rfl
@[simp] theorem setPort_rcpOwner (p : Nat) (x : Port) : (setPort p x s).rcpOwner = s.rcpOwner := rfl
@[simp] theorem setPort_resrecs (p : Nat) (x : Port) : (setPort p x s).resrecs = s.resrecs := rfl
@[simp] theorem setPort_logCoef (p : Nat) (x : Port) : (setPort p x s).logCoef = s.logCoef := rfl
@[simp] theorem setPort_logTime (p : Nat) (x : Port) : (setPort p x s).logTime = s.logTime := rfl
@[simp] theorem setPort_logWear (p : Nat) (x : Port) : (setPort p x s).logWear = s.logWear := rfl
@[simp] theorem setPort_stks (p : Nat) (x : Port) : (setPort p x s).stks = s.stks := rfl
@[simp] theorem setPort_ioRegs (p : Nat) (x : Port) : (setPort p x s).ioRegs = s.ioRegs := rfl
@[simp] theorem setPort_outFail (p : Nat) (x : Port) : (setPort p x s).outFail = s.outFail := rfl
@[simp] theorem setPort_strms (p : Nat) (x : Port) : (setPort p x s).strms = s.strms := rfl
@[simp] theorem setPort_arrNo (p : Nat) (x : Port) : (setPort p x s).arrNo = s.arrNo := rfl
@[simp] theorem setPort_results (p : Nat) (x : Port) : (setPort p x s).results = s.results := rfl
@[simp] theorem setPort_events (p : Nat) (x : Port) : (setPort p x s).events = s.events := rfl
@[simp] theorem setPort_twn (p : Nat) (x : Port) : (setPort p x s).twn = s.twn := rfl
@[simp] theorem setPort_qmax (p : Nat) (x : Port) : (setPort p x s).qmax = s.qmax := rfl
@[simp] theorem setPort_rrLast (p : Nat) (x : Port) : (setPort p x s).rrLast = s.rrLast := rfl
@[simp] theorem setPort_limitAt (p : Nat) (x : Port) : (setPort p x s).limitAt = s.limitAt := rfl
@[simp] theorem setPort_dz (p : Nat) (x : Port) : (setPort p x s).dz = s.dz := rfl
@[simp] theorem setPort_admJob (p : Nat) (x : Port) : (setPort p x s).admJob = s.admJob := rfl
@[simp] theorem setPort_opKey (p : Nat) (x : Port) : (setPort p x s).opKey = s.opKey := rfl
theorem setPort_ports (p : Nat) (x : Port) : (setPort p x s).ports = SMap.set Port.empty s.ports p x := rfl
@[simp] theorem setPort_paths (p : Nat) (x : Port) : (setPort p x s).paths = s.paths := rfl
@[simp] theorem setPort_peers (p : Nat) (x : Port) : (setPort p x s).peers = s.peers := rfl
@[simp] theorem setPort_recalls (p : Nat) (x : Port) : (setPort p x s).recalls = s.recalls := rfl
@[simp] theorem setPort_rtArm (p : Nat) (x : Port) : (setPort p x s).rtArm = s.rtArm := rfl
@[simp] theorem setPort_ptpArm (p : Nat) (x : Port) : (setPort p x s).ptpArm = s.ptpArm := rfl
@[simp] theorem setPort_ptpOfs (p : Nat) (x : Port) : (setPort p x s).ptpOfs = s.ptpOfs := rfl
@[simp] theorem setPort_roll (p : Nat) (x : Port) : (setPort p x s).roll = s.roll := rfl
@[simp] theorem setPort_ld (p : Nat) (x : Port) : (setPort p x s).ld = s.ld := rfl
@[simp] theorem setPort_logFails (p : Nat) (x : Port) : (setPort p x s).logFails = s.logFails := rfl
@[simp] theorem setPort_stress (p : Nat) (x : Port) : (setPort p x s).stress = s.stress := rfl
@[simp] theorem setPort_dampAt (p : Nat) (x : Port) : (setPort p x s).dampAt = s.dampAt := rfl
@[simp] theorem setPort_epochAt (p : Nat) (x : Port) : (setPort p x s).epochAt = s.epochAt := rfl
@[simp] theorem setPort_refAt (p : Nat) (x : Port) : (setPort p x s).refAt = s.refAt := rfl
@[simp] theorem setPort_meas (p : Nat) (x : Port) : (setPort p x s).meas = s.meas := rfl
@[simp] theorem setPort_boot (p : Nat) (x : Port) : (setPort p x s).boot = s.boot := rfl
@[simp] theorem setPort_twinDel (p : Nat) (x : Port) : (setPort p x s).twinDel = s.twinDel := rfl
@[simp] theorem setPort_enabled (p : Nat) (x : Port) : (setPort p x s).enabled = s.enabled := rfl
@[simp] theorem setPort_svcLow (p : Nat) (x : Port) : (setPort p x s).svcLow = s.svcLow := rfl
@[simp] theorem setPort_sresp (p : Nat) (x : Port) : (setPort p x s).sresp = s.sresp := rfl
@[simp] theorem setPort_out (p : Nat) (x : Port) : (setPort p x s).out = s.out := rfl
@[simp] theorem setPort_pending (p : Nat) (x : Port) : (setPort p x s).pending = s.pending := rfl

-- setPath
@[simp] theorem setPath_free (e p : Nat) (x : Path) : (setPath e p x s).free = s.free := rfl
@[simp] theorem setPath_rack (e p : Nat) (x : Path) : (setPath e p x s).rack = s.rack := rfl
@[simp] theorem setPath_regs (e p : Nat) (x : Path) : (setPath e p x s).regs = s.regs := rfl
@[simp] theorem setPath_latch (e p : Nat) (x : Path) : (setPath e p x s).latch = s.latch := rfl
@[simp] theorem setPath_locks (e p : Nat) (x : Path) : (setPath e p x s).locks = s.locks := rfl
@[simp] theorem setPath_evHold (e p : Nat) (x : Path) : (setPath e p x s).evHold = s.evHold := rfl
@[simp] theorem setPath_whiDue (e p : Nat) (x : Path) : (setPath e p x s).whiDue = s.whiDue := rfl
@[simp] theorem setPath_whiWait (e p : Nat) (x : Path) : (setPath e p x s).whiWait = s.whiWait := rfl
@[simp] theorem setPath_ovfNext (e p : Nat) (x : Path) : (setPath e p x s).ovfNext = s.ovfNext := rfl
@[simp] theorem setPath_snapAt (e p : Nat) (x : Path) : (setPath e p x s).snapAt = s.snapAt := rfl
@[simp] theorem setPath_units (e p : Nat) (x : Path) : (setPath e p x s).units = s.units := rfl
@[simp] theorem setPath_clus (e p : Nat) (x : Path) : (setPath e p x s).clus = s.clus := rfl
@[simp] theorem setPath_rgns (e p : Nat) (x : Path) : (setPath e p x s).rgns = s.rgns := rfl
@[simp] theorem setPath_mem (e p : Nat) (x : Path) : (setPath e p x s).mem = s.mem := rfl
@[simp] theorem setPath_slots (e p : Nat) (x : Path) : (setPath e p x s).slots = s.slots := rfl
@[simp] theorem setPath_suspects (e p : Nat) (x : Path) : (setPath e p x s).suspects = s.suspects := rfl
@[simp] theorem setPath_failRecs (e p : Nat) (x : Path) : (setPath e p x s).failRecs = s.failRecs := rfl
@[simp] theorem setPath_downs (e p : Nat) (x : Path) : (setPath e p x s).downs = s.downs := rfl
@[simp] theorem setPath_netPath (e p : Nat) (x : Path) : (setPath e p x s).netPath = s.netPath := rfl
@[simp] theorem setPath_netFails (e p : Nat) (x : Path) : (setPath e p x s).netFails = s.netFails := rfl
@[simp] theorem setPath_netWait (e p : Nat) (x : Path) : (setPath e p x s).netWait = s.netWait := rfl
@[simp] theorem setPath_records (e p : Nat) (x : Path) : (setPath e p x s).records = s.records := rfl
@[simp] theorem setPath_layerRegs (e p : Nat) (x : Path) : (setPath e p x s).layerRegs = s.layerRegs := rfl
@[simp] theorem setPath_epochAdd (e p : Nat) (x : Path) : (setPath e p x s).epochAdd = s.epochAdd := rfl
@[simp] theorem setPath_epochRaised (e p : Nat) (x : Path) : (setPath e p x s).epochRaised = s.epochRaised := rfl
@[simp] theorem setPath_rcpOwner (e p : Nat) (x : Path) : (setPath e p x s).rcpOwner = s.rcpOwner := rfl
@[simp] theorem setPath_resrecs (e p : Nat) (x : Path) : (setPath e p x s).resrecs = s.resrecs := rfl
@[simp] theorem setPath_logCoef (e p : Nat) (x : Path) : (setPath e p x s).logCoef = s.logCoef := rfl
@[simp] theorem setPath_logTime (e p : Nat) (x : Path) : (setPath e p x s).logTime = s.logTime := rfl
@[simp] theorem setPath_logWear (e p : Nat) (x : Path) : (setPath e p x s).logWear = s.logWear := rfl
@[simp] theorem setPath_stks (e p : Nat) (x : Path) : (setPath e p x s).stks = s.stks := rfl
@[simp] theorem setPath_ioRegs (e p : Nat) (x : Path) : (setPath e p x s).ioRegs = s.ioRegs := rfl
@[simp] theorem setPath_outFail (e p : Nat) (x : Path) : (setPath e p x s).outFail = s.outFail := rfl
@[simp] theorem setPath_strms (e p : Nat) (x : Path) : (setPath e p x s).strms = s.strms := rfl
@[simp] theorem setPath_arrNo (e p : Nat) (x : Path) : (setPath e p x s).arrNo = s.arrNo := rfl
@[simp] theorem setPath_results (e p : Nat) (x : Path) : (setPath e p x s).results = s.results := rfl
@[simp] theorem setPath_events (e p : Nat) (x : Path) : (setPath e p x s).events = s.events := rfl
@[simp] theorem setPath_twn (e p : Nat) (x : Path) : (setPath e p x s).twn = s.twn := rfl
@[simp] theorem setPath_qmax (e p : Nat) (x : Path) : (setPath e p x s).qmax = s.qmax := rfl
@[simp] theorem setPath_rrLast (e p : Nat) (x : Path) : (setPath e p x s).rrLast = s.rrLast := rfl
@[simp] theorem setPath_limitAt (e p : Nat) (x : Path) : (setPath e p x s).limitAt = s.limitAt := rfl
@[simp] theorem setPath_dz (e p : Nat) (x : Path) : (setPath e p x s).dz = s.dz := rfl
@[simp] theorem setPath_admJob (e p : Nat) (x : Path) : (setPath e p x s).admJob = s.admJob := rfl
@[simp] theorem setPath_opKey (e p : Nat) (x : Path) : (setPath e p x s).opKey = s.opKey := rfl
@[simp] theorem setPath_ports (e p : Nat) (x : Path) : (setPath e p x s).ports = s.ports := rfl
theorem setPath_paths (e p : Nat) (x : Path) : (setPath e p x s).paths = SMap.set Path.empty s.paths (e * 4096 + p) x := rfl
@[simp] theorem setPath_peers (e p : Nat) (x : Path) : (setPath e p x s).peers = s.peers := rfl
@[simp] theorem setPath_recalls (e p : Nat) (x : Path) : (setPath e p x s).recalls = s.recalls := rfl
@[simp] theorem setPath_rtArm (e p : Nat) (x : Path) : (setPath e p x s).rtArm = s.rtArm := rfl
@[simp] theorem setPath_ptpArm (e p : Nat) (x : Path) : (setPath e p x s).ptpArm = s.ptpArm := rfl
@[simp] theorem setPath_ptpOfs (e p : Nat) (x : Path) : (setPath e p x s).ptpOfs = s.ptpOfs := rfl
@[simp] theorem setPath_roll (e p : Nat) (x : Path) : (setPath e p x s).roll = s.roll := rfl
@[simp] theorem setPath_ld (e p : Nat) (x : Path) : (setPath e p x s).ld = s.ld := rfl
@[simp] theorem setPath_logFails (e p : Nat) (x : Path) : (setPath e p x s).logFails = s.logFails := rfl
@[simp] theorem setPath_stress (e p : Nat) (x : Path) : (setPath e p x s).stress = s.stress := rfl
@[simp] theorem setPath_dampAt (e p : Nat) (x : Path) : (setPath e p x s).dampAt = s.dampAt := rfl
@[simp] theorem setPath_epochAt (e p : Nat) (x : Path) : (setPath e p x s).epochAt = s.epochAt := rfl
@[simp] theorem setPath_refAt (e p : Nat) (x : Path) : (setPath e p x s).refAt = s.refAt := rfl
@[simp] theorem setPath_meas (e p : Nat) (x : Path) : (setPath e p x s).meas = s.meas := rfl
@[simp] theorem setPath_boot (e p : Nat) (x : Path) : (setPath e p x s).boot = s.boot := rfl
@[simp] theorem setPath_twinDel (e p : Nat) (x : Path) : (setPath e p x s).twinDel = s.twinDel := rfl
@[simp] theorem setPath_enabled (e p : Nat) (x : Path) : (setPath e p x s).enabled = s.enabled := rfl
@[simp] theorem setPath_svcLow (e p : Nat) (x : Path) : (setPath e p x s).svcLow = s.svcLow := rfl
@[simp] theorem setPath_sresp (e p : Nat) (x : Path) : (setPath e p x s).sresp = s.sresp := rfl
@[simp] theorem setPath_out (e p : Nat) (x : Path) : (setPath e p x s).out = s.out := rfl
@[simp] theorem setPath_pending (e p : Nat) (x : Path) : (setPath e p x s).pending = s.pending := rfl


-- updStk
@[simp] theorem updStk_free (n : Nat) (f : Stk → Stk) : (updStk n f s).free = s.free := rfl
@[simp] theorem updStk_rack (n : Nat) (f : Stk → Stk) : (updStk n f s).rack = s.rack := rfl
@[simp] theorem updStk_regs (n : Nat) (f : Stk → Stk) : (updStk n f s).regs = s.regs := rfl
@[simp] theorem updStk_latch (n : Nat) (f : Stk → Stk) : (updStk n f s).latch = s.latch := rfl
@[simp] theorem updStk_locks (n : Nat) (f : Stk → Stk) : (updStk n f s).locks = s.locks := rfl
@[simp] theorem updStk_evHold (n : Nat) (f : Stk → Stk) : (updStk n f s).evHold = s.evHold := rfl
@[simp] theorem updStk_whiDue (n : Nat) (f : Stk → Stk) : (updStk n f s).whiDue = s.whiDue := rfl
@[simp] theorem updStk_whiWait (n : Nat) (f : Stk → Stk) : (updStk n f s).whiWait = s.whiWait := rfl
@[simp] theorem updStk_ovfNext (n : Nat) (f : Stk → Stk) : (updStk n f s).ovfNext = s.ovfNext := rfl
@[simp] theorem updStk_snapAt (n : Nat) (f : Stk → Stk) : (updStk n f s).snapAt = s.snapAt := rfl
@[simp] theorem updStk_units (n : Nat) (f : Stk → Stk) : (updStk n f s).units = s.units := rfl
@[simp] theorem updStk_clus (n : Nat) (f : Stk → Stk) : (updStk n f s).clus = s.clus := rfl
@[simp] theorem updStk_rgns (n : Nat) (f : Stk → Stk) : (updStk n f s).rgns = s.rgns := rfl
@[simp] theorem updStk_mem (n : Nat) (f : Stk → Stk) : (updStk n f s).mem = s.mem := rfl
@[simp] theorem updStk_slots (n : Nat) (f : Stk → Stk) : (updStk n f s).slots = s.slots := rfl
@[simp] theorem updStk_suspects (n : Nat) (f : Stk → Stk) : (updStk n f s).suspects = s.suspects := rfl
@[simp] theorem updStk_failRecs (n : Nat) (f : Stk → Stk) : (updStk n f s).failRecs = s.failRecs := rfl
@[simp] theorem updStk_downs (n : Nat) (f : Stk → Stk) : (updStk n f s).downs = s.downs := rfl
@[simp] theorem updStk_netPath (n : Nat) (f : Stk → Stk) : (updStk n f s).netPath = s.netPath := rfl
@[simp] theorem updStk_netFails (n : Nat) (f : Stk → Stk) : (updStk n f s).netFails = s.netFails := rfl
@[simp] theorem updStk_netWait (n : Nat) (f : Stk → Stk) : (updStk n f s).netWait = s.netWait := rfl
@[simp] theorem updStk_records (n : Nat) (f : Stk → Stk) : (updStk n f s).records = s.records := rfl
@[simp] theorem updStk_layerRegs (n : Nat) (f : Stk → Stk) : (updStk n f s).layerRegs = s.layerRegs := rfl
@[simp] theorem updStk_epochAdd (n : Nat) (f : Stk → Stk) : (updStk n f s).epochAdd = s.epochAdd := rfl
@[simp] theorem updStk_epochRaised (n : Nat) (f : Stk → Stk) : (updStk n f s).epochRaised = s.epochRaised := rfl
@[simp] theorem updStk_rcpOwner (n : Nat) (f : Stk → Stk) : (updStk n f s).rcpOwner = s.rcpOwner := rfl
@[simp] theorem updStk_resrecs (n : Nat) (f : Stk → Stk) : (updStk n f s).resrecs = s.resrecs := rfl
@[simp] theorem updStk_logCoef (n : Nat) (f : Stk → Stk) : (updStk n f s).logCoef = s.logCoef := rfl
@[simp] theorem updStk_logTime (n : Nat) (f : Stk → Stk) : (updStk n f s).logTime = s.logTime := rfl
@[simp] theorem updStk_logWear (n : Nat) (f : Stk → Stk) : (updStk n f s).logWear = s.logWear := rfl
theorem updStk_stks (n : Nat) (f : Stk → Stk) : (updStk n f s).stks = SMap.set Stk.empty s.stks n (f (stkAt n s)) := rfl
@[simp] theorem updStk_ioRegs (n : Nat) (f : Stk → Stk) : (updStk n f s).ioRegs = s.ioRegs := rfl
@[simp] theorem updStk_outFail (n : Nat) (f : Stk → Stk) : (updStk n f s).outFail = s.outFail := rfl
@[simp] theorem updStk_strms (n : Nat) (f : Stk → Stk) : (updStk n f s).strms = s.strms := rfl
@[simp] theorem updStk_arrNo (n : Nat) (f : Stk → Stk) : (updStk n f s).arrNo = s.arrNo := rfl
@[simp] theorem updStk_results (n : Nat) (f : Stk → Stk) : (updStk n f s).results = s.results := rfl
@[simp] theorem updStk_events (n : Nat) (f : Stk → Stk) : (updStk n f s).events = s.events := rfl
@[simp] theorem updStk_twn (n : Nat) (f : Stk → Stk) : (updStk n f s).twn = s.twn := rfl
@[simp] theorem updStk_qmax (n : Nat) (f : Stk → Stk) : (updStk n f s).qmax = s.qmax := rfl
@[simp] theorem updStk_rrLast (n : Nat) (f : Stk → Stk) : (updStk n f s).rrLast = s.rrLast := rfl
@[simp] theorem updStk_limitAt (n : Nat) (f : Stk → Stk) : (updStk n f s).limitAt = s.limitAt := rfl
@[simp] theorem updStk_dz (n : Nat) (f : Stk → Stk) : (updStk n f s).dz = s.dz := rfl
@[simp] theorem updStk_admJob (n : Nat) (f : Stk → Stk) : (updStk n f s).admJob = s.admJob := rfl
@[simp] theorem updStk_opKey (n : Nat) (f : Stk → Stk) : (updStk n f s).opKey = s.opKey := rfl
@[simp] theorem updStk_ports (n : Nat) (f : Stk → Stk) : (updStk n f s).ports = s.ports := rfl
@[simp] theorem updStk_paths (n : Nat) (f : Stk → Stk) : (updStk n f s).paths = s.paths := rfl
@[simp] theorem updStk_peers (n : Nat) (f : Stk → Stk) : (updStk n f s).peers = s.peers := rfl
@[simp] theorem updStk_recalls (n : Nat) (f : Stk → Stk) : (updStk n f s).recalls = s.recalls := rfl
@[simp] theorem updStk_rtArm (n : Nat) (f : Stk → Stk) : (updStk n f s).rtArm = s.rtArm := rfl
@[simp] theorem updStk_ptpArm (n : Nat) (f : Stk → Stk) : (updStk n f s).ptpArm = s.ptpArm := rfl
@[simp] theorem updStk_ptpOfs (n : Nat) (f : Stk → Stk) : (updStk n f s).ptpOfs = s.ptpOfs := rfl
@[simp] theorem updStk_roll (n : Nat) (f : Stk → Stk) : (updStk n f s).roll = s.roll := rfl
@[simp] theorem updStk_ld (n : Nat) (f : Stk → Stk) : (updStk n f s).ld = s.ld := rfl
@[simp] theorem updStk_logFails (n : Nat) (f : Stk → Stk) : (updStk n f s).logFails = s.logFails := rfl
@[simp] theorem updStk_stress (n : Nat) (f : Stk → Stk) : (updStk n f s).stress = s.stress := rfl
@[simp] theorem updStk_dampAt (n : Nat) (f : Stk → Stk) : (updStk n f s).dampAt = s.dampAt := rfl
@[simp] theorem updStk_epochAt (n : Nat) (f : Stk → Stk) : (updStk n f s).epochAt = s.epochAt := rfl
@[simp] theorem updStk_refAt (n : Nat) (f : Stk → Stk) : (updStk n f s).refAt = s.refAt := rfl
@[simp] theorem updStk_meas (n : Nat) (f : Stk → Stk) : (updStk n f s).meas = s.meas := rfl
@[simp] theorem updStk_boot (n : Nat) (f : Stk → Stk) : (updStk n f s).boot = s.boot := rfl
@[simp] theorem updStk_twinDel (n : Nat) (f : Stk → Stk) : (updStk n f s).twinDel = s.twinDel := rfl
@[simp] theorem updStk_enabled (n : Nat) (f : Stk → Stk) : (updStk n f s).enabled = s.enabled := rfl
@[simp] theorem updStk_svcLow (n : Nat) (f : Stk → Stk) : (updStk n f s).svcLow = s.svcLow := rfl
@[simp] theorem updStk_sresp (n : Nat) (f : Stk → Stk) : (updStk n f s).sresp = s.sresp := rfl
@[simp] theorem updStk_out (n : Nat) (f : Stk → Stk) : (updStk n f s).out = s.out := rfl
@[simp] theorem updStk_pending (n : Nat) (f : Stk → Stk) : (updStk n f s).pending = s.pending := rfl

-- updDz
@[simp] theorem updDz_free (f : Dzit → Dzit) : (updDz f s).free = s.free := rfl
@[simp] theorem updDz_rack (f : Dzit → Dzit) : (updDz f s).rack = s.rack := rfl
@[simp] theorem updDz_regs (f : Dzit → Dzit) : (updDz f s).regs = s.regs := rfl
@[simp] theorem updDz_latch (f : Dzit → Dzit) : (updDz f s).latch = s.latch := rfl
@[simp] theorem updDz_locks (f : Dzit → Dzit) : (updDz f s).locks = s.locks := rfl
@[simp] theorem updDz_evHold (f : Dzit → Dzit) : (updDz f s).evHold = s.evHold := rfl
@[simp] theorem updDz_whiDue (f : Dzit → Dzit) : (updDz f s).whiDue = s.whiDue := rfl
@[simp] theorem updDz_whiWait (f : Dzit → Dzit) : (updDz f s).whiWait = s.whiWait := rfl
@[simp] theorem updDz_ovfNext (f : Dzit → Dzit) : (updDz f s).ovfNext = s.ovfNext := rfl
@[simp] theorem updDz_snapAt (f : Dzit → Dzit) : (updDz f s).snapAt = s.snapAt := rfl
@[simp] theorem updDz_units (f : Dzit → Dzit) : (updDz f s).units = s.units := rfl
@[simp] theorem updDz_clus (f : Dzit → Dzit) : (updDz f s).clus = s.clus := rfl
@[simp] theorem updDz_rgns (f : Dzit → Dzit) : (updDz f s).rgns = s.rgns := rfl
@[simp] theorem updDz_mem (f : Dzit → Dzit) : (updDz f s).mem = s.mem := rfl
@[simp] theorem updDz_slots (f : Dzit → Dzit) : (updDz f s).slots = s.slots := rfl
@[simp] theorem updDz_suspects (f : Dzit → Dzit) : (updDz f s).suspects = s.suspects := rfl
@[simp] theorem updDz_failRecs (f : Dzit → Dzit) : (updDz f s).failRecs = s.failRecs := rfl
@[simp] theorem updDz_downs (f : Dzit → Dzit) : (updDz f s).downs = s.downs := rfl
@[simp] theorem updDz_netPath (f : Dzit → Dzit) : (updDz f s).netPath = s.netPath := rfl
@[simp] theorem updDz_netFails (f : Dzit → Dzit) : (updDz f s).netFails = s.netFails := rfl
@[simp] theorem updDz_netWait (f : Dzit → Dzit) : (updDz f s).netWait = s.netWait := rfl
@[simp] theorem updDz_records (f : Dzit → Dzit) : (updDz f s).records = s.records := rfl
@[simp] theorem updDz_layerRegs (f : Dzit → Dzit) : (updDz f s).layerRegs = s.layerRegs := rfl
@[simp] theorem updDz_epochAdd (f : Dzit → Dzit) : (updDz f s).epochAdd = s.epochAdd := rfl
@[simp] theorem updDz_epochRaised (f : Dzit → Dzit) : (updDz f s).epochRaised = s.epochRaised := rfl
@[simp] theorem updDz_rcpOwner (f : Dzit → Dzit) : (updDz f s).rcpOwner = s.rcpOwner := rfl
@[simp] theorem updDz_resrecs (f : Dzit → Dzit) : (updDz f s).resrecs = s.resrecs := rfl
@[simp] theorem updDz_logCoef (f : Dzit → Dzit) : (updDz f s).logCoef = s.logCoef := rfl
@[simp] theorem updDz_logTime (f : Dzit → Dzit) : (updDz f s).logTime = s.logTime := rfl
@[simp] theorem updDz_logWear (f : Dzit → Dzit) : (updDz f s).logWear = s.logWear := rfl
@[simp] theorem updDz_stks (f : Dzit → Dzit) : (updDz f s).stks = s.stks := rfl
@[simp] theorem updDz_ioRegs (f : Dzit → Dzit) : (updDz f s).ioRegs = s.ioRegs := rfl
@[simp] theorem updDz_outFail (f : Dzit → Dzit) : (updDz f s).outFail = s.outFail := rfl
@[simp] theorem updDz_strms (f : Dzit → Dzit) : (updDz f s).strms = s.strms := rfl
@[simp] theorem updDz_arrNo (f : Dzit → Dzit) : (updDz f s).arrNo = s.arrNo := rfl
@[simp] theorem updDz_results (f : Dzit → Dzit) : (updDz f s).results = s.results := rfl
@[simp] theorem updDz_events (f : Dzit → Dzit) : (updDz f s).events = s.events := rfl
@[simp] theorem updDz_twn (f : Dzit → Dzit) : (updDz f s).twn = s.twn := rfl
@[simp] theorem updDz_qmax (f : Dzit → Dzit) : (updDz f s).qmax = s.qmax := rfl
@[simp] theorem updDz_rrLast (f : Dzit → Dzit) : (updDz f s).rrLast = s.rrLast := rfl
@[simp] theorem updDz_limitAt (f : Dzit → Dzit) : (updDz f s).limitAt = s.limitAt := rfl
theorem updDz_dz (f : Dzit → Dzit) : (updDz f s).dz = f s.dz := rfl
@[simp] theorem updDz_admJob (f : Dzit → Dzit) : (updDz f s).admJob = s.admJob := rfl
@[simp] theorem updDz_opKey (f : Dzit → Dzit) : (updDz f s).opKey = s.opKey := rfl
@[simp] theorem updDz_ports (f : Dzit → Dzit) : (updDz f s).ports = s.ports := rfl
@[simp] theorem updDz_paths (f : Dzit → Dzit) : (updDz f s).paths = s.paths := rfl
@[simp] theorem updDz_peers (f : Dzit → Dzit) : (updDz f s).peers = s.peers := rfl
@[simp] theorem updDz_recalls (f : Dzit → Dzit) : (updDz f s).recalls = s.recalls := rfl
@[simp] theorem updDz_rtArm (f : Dzit → Dzit) : (updDz f s).rtArm = s.rtArm := rfl
@[simp] theorem updDz_ptpArm (f : Dzit → Dzit) : (updDz f s).ptpArm = s.ptpArm := rfl
@[simp] theorem updDz_ptpOfs (f : Dzit → Dzit) : (updDz f s).ptpOfs = s.ptpOfs := rfl
@[simp] theorem updDz_roll (f : Dzit → Dzit) : (updDz f s).roll = s.roll := rfl
@[simp] theorem updDz_ld (f : Dzit → Dzit) : (updDz f s).ld = s.ld := rfl
@[simp] theorem updDz_logFails (f : Dzit → Dzit) : (updDz f s).logFails = s.logFails := rfl
@[simp] theorem updDz_stress (f : Dzit → Dzit) : (updDz f s).stress = s.stress := rfl
@[simp] theorem updDz_dampAt (f : Dzit → Dzit) : (updDz f s).dampAt = s.dampAt := rfl
@[simp] theorem updDz_epochAt (f : Dzit → Dzit) : (updDz f s).epochAt = s.epochAt := rfl
@[simp] theorem updDz_refAt (f : Dzit → Dzit) : (updDz f s).refAt = s.refAt := rfl
@[simp] theorem updDz_meas (f : Dzit → Dzit) : (updDz f s).meas = s.meas := rfl
@[simp] theorem updDz_boot (f : Dzit → Dzit) : (updDz f s).boot = s.boot := rfl
@[simp] theorem updDz_twinDel (f : Dzit → Dzit) : (updDz f s).twinDel = s.twinDel := rfl
@[simp] theorem updDz_enabled (f : Dzit → Dzit) : (updDz f s).enabled = s.enabled := rfl
@[simp] theorem updDz_svcLow (f : Dzit → Dzit) : (updDz f s).svcLow = s.svcLow := rfl
@[simp] theorem updDz_sresp (f : Dzit → Dzit) : (updDz f s).sresp = s.sresp := rfl
@[simp] theorem updDz_out (f : Dzit → Dzit) : (updDz f s).out = s.out := rfl
@[simp] theorem updDz_pending (f : Dzit → Dzit) : (updDz f s).pending = s.pending := rfl

-- updLd
@[simp] theorem updLd_free (f : Loader → Loader) : (updLd f s).free = s.free := rfl
@[simp] theorem updLd_rack (f : Loader → Loader) : (updLd f s).rack = s.rack := rfl
@[simp] theorem updLd_regs (f : Loader → Loader) : (updLd f s).regs = s.regs := rfl
@[simp] theorem updLd_latch (f : Loader → Loader) : (updLd f s).latch = s.latch := rfl
@[simp] theorem updLd_locks (f : Loader → Loader) : (updLd f s).locks = s.locks := rfl
@[simp] theorem updLd_evHold (f : Loader → Loader) : (updLd f s).evHold = s.evHold := rfl
@[simp] theorem updLd_whiDue (f : Loader → Loader) : (updLd f s).whiDue = s.whiDue := rfl
@[simp] theorem updLd_whiWait (f : Loader → Loader) : (updLd f s).whiWait = s.whiWait := rfl
@[simp] theorem updLd_ovfNext (f : Loader → Loader) : (updLd f s).ovfNext = s.ovfNext := rfl
@[simp] theorem updLd_snapAt (f : Loader → Loader) : (updLd f s).snapAt = s.snapAt := rfl
@[simp] theorem updLd_units (f : Loader → Loader) : (updLd f s).units = s.units := rfl
@[simp] theorem updLd_clus (f : Loader → Loader) : (updLd f s).clus = s.clus := rfl
@[simp] theorem updLd_rgns (f : Loader → Loader) : (updLd f s).rgns = s.rgns := rfl
@[simp] theorem updLd_mem (f : Loader → Loader) : (updLd f s).mem = s.mem := rfl
@[simp] theorem updLd_slots (f : Loader → Loader) : (updLd f s).slots = s.slots := rfl
@[simp] theorem updLd_suspects (f : Loader → Loader) : (updLd f s).suspects = s.suspects := rfl
@[simp] theorem updLd_failRecs (f : Loader → Loader) : (updLd f s).failRecs = s.failRecs := rfl
@[simp] theorem updLd_downs (f : Loader → Loader) : (updLd f s).downs = s.downs := rfl
@[simp] theorem updLd_netPath (f : Loader → Loader) : (updLd f s).netPath = s.netPath := rfl
@[simp] theorem updLd_netFails (f : Loader → Loader) : (updLd f s).netFails = s.netFails := rfl
@[simp] theorem updLd_netWait (f : Loader → Loader) : (updLd f s).netWait = s.netWait := rfl
@[simp] theorem updLd_records (f : Loader → Loader) : (updLd f s).records = s.records := rfl
@[simp] theorem updLd_layerRegs (f : Loader → Loader) : (updLd f s).layerRegs = s.layerRegs := rfl
@[simp] theorem updLd_epochAdd (f : Loader → Loader) : (updLd f s).epochAdd = s.epochAdd := rfl
@[simp] theorem updLd_epochRaised (f : Loader → Loader) : (updLd f s).epochRaised = s.epochRaised := rfl
@[simp] theorem updLd_rcpOwner (f : Loader → Loader) : (updLd f s).rcpOwner = s.rcpOwner := rfl
@[simp] theorem updLd_resrecs (f : Loader → Loader) : (updLd f s).resrecs = s.resrecs := rfl
@[simp] theorem updLd_logCoef (f : Loader → Loader) : (updLd f s).logCoef = s.logCoef := rfl
@[simp] theorem updLd_logTime (f : Loader → Loader) : (updLd f s).logTime = s.logTime := rfl
@[simp] theorem updLd_logWear (f : Loader → Loader) : (updLd f s).logWear = s.logWear := rfl
@[simp] theorem updLd_stks (f : Loader → Loader) : (updLd f s).stks = s.stks := rfl
@[simp] theorem updLd_ioRegs (f : Loader → Loader) : (updLd f s).ioRegs = s.ioRegs := rfl
@[simp] theorem updLd_outFail (f : Loader → Loader) : (updLd f s).outFail = s.outFail := rfl
@[simp] theorem updLd_strms (f : Loader → Loader) : (updLd f s).strms = s.strms := rfl
@[simp] theorem updLd_arrNo (f : Loader → Loader) : (updLd f s).arrNo = s.arrNo := rfl
@[simp] theorem updLd_results (f : Loader → Loader) : (updLd f s).results = s.results := rfl
@[simp] theorem updLd_events (f : Loader → Loader) : (updLd f s).events = s.events := rfl
@[simp] theorem updLd_twn (f : Loader → Loader) : (updLd f s).twn = s.twn := rfl
@[simp] theorem updLd_qmax (f : Loader → Loader) : (updLd f s).qmax = s.qmax := rfl
@[simp] theorem updLd_rrLast (f : Loader → Loader) : (updLd f s).rrLast = s.rrLast := rfl
@[simp] theorem updLd_limitAt (f : Loader → Loader) : (updLd f s).limitAt = s.limitAt := rfl
@[simp] theorem updLd_dz (f : Loader → Loader) : (updLd f s).dz = s.dz := rfl
@[simp] theorem updLd_admJob (f : Loader → Loader) : (updLd f s).admJob = s.admJob := rfl
@[simp] theorem updLd_opKey (f : Loader → Loader) : (updLd f s).opKey = s.opKey := rfl
@[simp] theorem updLd_ports (f : Loader → Loader) : (updLd f s).ports = s.ports := rfl
@[simp] theorem updLd_paths (f : Loader → Loader) : (updLd f s).paths = s.paths := rfl
@[simp] theorem updLd_peers (f : Loader → Loader) : (updLd f s).peers = s.peers := rfl
@[simp] theorem updLd_recalls (f : Loader → Loader) : (updLd f s).recalls = s.recalls := rfl
@[simp] theorem updLd_rtArm (f : Loader → Loader) : (updLd f s).rtArm = s.rtArm := rfl
@[simp] theorem updLd_ptpArm (f : Loader → Loader) : (updLd f s).ptpArm = s.ptpArm := rfl
@[simp] theorem updLd_ptpOfs (f : Loader → Loader) : (updLd f s).ptpOfs = s.ptpOfs := rfl
@[simp] theorem updLd_roll (f : Loader → Loader) : (updLd f s).roll = s.roll := rfl
theorem updLd_ld (f : Loader → Loader) : (updLd f s).ld = f s.ld := rfl
@[simp] theorem updLd_logFails (f : Loader → Loader) : (updLd f s).logFails = s.logFails := rfl
@[simp] theorem updLd_stress (f : Loader → Loader) : (updLd f s).stress = s.stress := rfl
@[simp] theorem updLd_dampAt (f : Loader → Loader) : (updLd f s).dampAt = s.dampAt := rfl
@[simp] theorem updLd_epochAt (f : Loader → Loader) : (updLd f s).epochAt = s.epochAt := rfl
@[simp] theorem updLd_refAt (f : Loader → Loader) : (updLd f s).refAt = s.refAt := rfl
@[simp] theorem updLd_meas (f : Loader → Loader) : (updLd f s).meas = s.meas := rfl
@[simp] theorem updLd_boot (f : Loader → Loader) : (updLd f s).boot = s.boot := rfl
@[simp] theorem updLd_twinDel (f : Loader → Loader) : (updLd f s).twinDel = s.twinDel := rfl
@[simp] theorem updLd_enabled (f : Loader → Loader) : (updLd f s).enabled = s.enabled := rfl
@[simp] theorem updLd_svcLow (f : Loader → Loader) : (updLd f s).svcLow = s.svcLow := rfl
@[simp] theorem updLd_sresp (f : Loader → Loader) : (updLd f s).sresp = s.sresp := rfl
@[simp] theorem updLd_out (f : Loader → Loader) : (updLd f s).out = s.out := rfl
@[simp] theorem updLd_pending (f : Loader → Loader) : (updLd f s).pending = s.pending := rfl

-- takeFree
@[simp] theorem takeFree_fst : (takeFree s).1 = (Config.freeWord s.free).toNat := rfl
@[simp] theorem takeFree_rack : (takeFree s).2.rack = s.rack := rfl
@[simp] theorem takeFree_regs : (takeFree s).2.regs = s.regs := rfl
@[simp] theorem takeFree_latch : (takeFree s).2.latch = s.latch := rfl
@[simp] theorem takeFree_locks : (takeFree s).2.locks = s.locks := rfl
@[simp] theorem takeFree_evHold : (takeFree s).2.evHold = s.evHold := rfl
@[simp] theorem takeFree_whiDue : (takeFree s).2.whiDue = s.whiDue := rfl
@[simp] theorem takeFree_whiWait : (takeFree s).2.whiWait = s.whiWait := rfl
@[simp] theorem takeFree_ovfNext : (takeFree s).2.ovfNext = s.ovfNext := rfl
@[simp] theorem takeFree_snapAt : (takeFree s).2.snapAt = s.snapAt := rfl
@[simp] theorem takeFree_units : (takeFree s).2.units = s.units := rfl
@[simp] theorem takeFree_clus : (takeFree s).2.clus = s.clus := rfl
@[simp] theorem takeFree_rgns : (takeFree s).2.rgns = s.rgns := rfl
@[simp] theorem takeFree_mem : (takeFree s).2.mem = s.mem := rfl
@[simp] theorem takeFree_slots : (takeFree s).2.slots = s.slots := rfl
@[simp] theorem takeFree_suspects : (takeFree s).2.suspects = s.suspects := rfl
@[simp] theorem takeFree_failRecs : (takeFree s).2.failRecs = s.failRecs := rfl
@[simp] theorem takeFree_downs : (takeFree s).2.downs = s.downs := rfl
@[simp] theorem takeFree_netPath : (takeFree s).2.netPath = s.netPath := rfl
@[simp] theorem takeFree_netFails : (takeFree s).2.netFails = s.netFails := rfl
@[simp] theorem takeFree_netWait : (takeFree s).2.netWait = s.netWait := rfl
@[simp] theorem takeFree_records : (takeFree s).2.records = s.records := rfl
@[simp] theorem takeFree_layerRegs : (takeFree s).2.layerRegs = s.layerRegs := rfl
@[simp] theorem takeFree_epochAdd : (takeFree s).2.epochAdd = s.epochAdd := rfl
@[simp] theorem takeFree_epochRaised : (takeFree s).2.epochRaised = s.epochRaised := rfl
@[simp] theorem takeFree_rcpOwner : (takeFree s).2.rcpOwner = s.rcpOwner := rfl
@[simp] theorem takeFree_resrecs : (takeFree s).2.resrecs = s.resrecs := rfl
@[simp] theorem takeFree_logCoef : (takeFree s).2.logCoef = s.logCoef := rfl
@[simp] theorem takeFree_logTime : (takeFree s).2.logTime = s.logTime := rfl
@[simp] theorem takeFree_logWear : (takeFree s).2.logWear = s.logWear := rfl
@[simp] theorem takeFree_stks : (takeFree s).2.stks = s.stks := rfl
@[simp] theorem takeFree_ioRegs : (takeFree s).2.ioRegs = s.ioRegs := rfl
@[simp] theorem takeFree_outFail : (takeFree s).2.outFail = s.outFail := rfl
@[simp] theorem takeFree_strms : (takeFree s).2.strms = s.strms := rfl
@[simp] theorem takeFree_arrNo : (takeFree s).2.arrNo = s.arrNo := rfl
@[simp] theorem takeFree_results : (takeFree s).2.results = s.results := rfl
@[simp] theorem takeFree_events : (takeFree s).2.events = s.events := rfl
@[simp] theorem takeFree_twn : (takeFree s).2.twn = s.twn := rfl
@[simp] theorem takeFree_qmax : (takeFree s).2.qmax = s.qmax := rfl
@[simp] theorem takeFree_rrLast : (takeFree s).2.rrLast = s.rrLast := rfl
@[simp] theorem takeFree_limitAt : (takeFree s).2.limitAt = s.limitAt := rfl
@[simp] theorem takeFree_dz : (takeFree s).2.dz = s.dz := rfl
@[simp] theorem takeFree_admJob : (takeFree s).2.admJob = s.admJob := rfl
@[simp] theorem takeFree_opKey : (takeFree s).2.opKey = s.opKey := rfl
@[simp] theorem takeFree_ports : (takeFree s).2.ports = s.ports := rfl
@[simp] theorem takeFree_paths : (takeFree s).2.paths = s.paths := rfl
@[simp] theorem takeFree_peers : (takeFree s).2.peers = s.peers := rfl
@[simp] theorem takeFree_recalls : (takeFree s).2.recalls = s.recalls := rfl
@[simp] theorem takeFree_rtArm : (takeFree s).2.rtArm = s.rtArm := rfl
@[simp] theorem takeFree_ptpArm : (takeFree s).2.ptpArm = s.ptpArm := rfl
@[simp] theorem takeFree_ptpOfs : (takeFree s).2.ptpOfs = s.ptpOfs := rfl
@[simp] theorem takeFree_roll : (takeFree s).2.roll = s.roll := rfl
@[simp] theorem takeFree_ld : (takeFree s).2.ld = s.ld := rfl
@[simp] theorem takeFree_logFails : (takeFree s).2.logFails = s.logFails := rfl
@[simp] theorem takeFree_stress : (takeFree s).2.stress = s.stress := rfl
@[simp] theorem takeFree_dampAt : (takeFree s).2.dampAt = s.dampAt := rfl
@[simp] theorem takeFree_epochAt : (takeFree s).2.epochAt = s.epochAt := rfl
@[simp] theorem takeFree_refAt : (takeFree s).2.refAt = s.refAt := rfl
@[simp] theorem takeFree_meas : (takeFree s).2.meas = s.meas := rfl
@[simp] theorem takeFree_boot : (takeFree s).2.boot = s.boot := rfl
@[simp] theorem takeFree_twinDel : (takeFree s).2.twinDel = s.twinDel := rfl
@[simp] theorem takeFree_enabled : (takeFree s).2.enabled = s.enabled := rfl
@[simp] theorem takeFree_svcLow : (takeFree s).2.svcLow = s.svcLow := rfl
@[simp] theorem takeFree_sresp : (takeFree s).2.sresp = s.sresp := rfl
@[simp] theorem takeFree_out : (takeFree s).2.out = s.out := rfl
@[simp] theorem takeFree_pending : (takeFree s).2.pending = s.pending := rfl
theorem takeFree_free : (takeFree s).2.free = s.free + 1 := rfl

end Sys2Proof.Machine
end

