-- ==== Sys2Proof/Laws/Report.lean ====
section
/-! SUPPORT. What the reporting of an event can change: registers, the Whistle's timers and waiting sources, the event selects, the sense
triggers, an armed snapshot, the overflow order, and outputs. Everything else stays, whatever is reported. -/

namespace Sys2Proof.Machine

/-- The second state differs from the first only in what the reporting of an event can change. -/
def Reports (s t : State) : Prop :=
  t = { s with
    regs := t.regs, whiDue := t.whiDue, whiWait := t.whiWait, evHold := t.evHold, rgns := t.rgns, snapAt := t.snapAt,
    ovfNext := t.ovfNext, out := t.out }

theorem Reports.refl (s : State) : Reports s s := rfl

theorem Reports.trans {s t u : State} (h : Reports s t) (k : Reports t u) : Reports s u := by
  unfold Reports at *
  rw [k, h]

/-- A function that only reports may run any number of times. -/
theorem Reports.foldl {β : Type} {f : State → β → State} (hf : ∀ s b, Reports s (f s b)) (l : List β) (s : State) :
    Reports s (l.foldl f s) := by
  induction l generalizing s with
  | nil => exact Reports.refl s
  | cons b l ih => exact (hf s b).trans (ih (f s b))

theorem Reports.foldRange {f : Nat → State → State} (hf : ∀ i s, Reports s (f i s)) (n : Nat) (s : State) :
    Reports s (foldRange n f s) := Reports.foldl (fun s i => hf i s) (List.range n) s

theorem Reports.ite {c : Prop} [Decidable c] {s t u : State} (ht : Reports s t) (hu : Reports s u) : Reports s (if c then t else u) := by
  split <;> assumption

-- What stays ------------------------------------------------------------------------------------------------------------

theorem Reports.mem {s t : State} (h : Reports s t) : t.mem = s.mem := by rw [h]
theorem Reports.units {s t : State} (h : Reports s t) : t.units = s.units := by rw [h]
theorem Reports.clus {s t : State} (h : Reports s t) : t.clus = s.clus := by rw [h]
theorem Reports.slots {s t : State} (h : Reports s t) : t.slots = s.slots := by rw [h]
theorem Reports.locks {s t : State} (h : Reports s t) : t.locks = s.locks := by rw [h]
theorem Reports.rack {s t : State} (h : Reports s t) : t.rack = s.rack := by rw [h]
theorem Reports.free {s t : State} (h : Reports s t) : t.free = s.free := by rw [h]
theorem Reports.pending {s t : State} (h : Reports s t) : t.pending = s.pending := by rw [h]
theorem Reports.stks {s t : State} (h : Reports s t) : t.stks = s.stks := by rw [h]
theorem Reports.strms {s t : State} (h : Reports s t) : t.strms = s.strms := by rw [h]
theorem Reports.ports {s t : State} (h : Reports s t) : t.ports = s.ports := by rw [h]

theorem Reports.locByte {s t : State} (h : Reports s t) (n loc : Nat) : locByte n loc t = locByte n loc s := by
  simp [Machine.locByte, h.mem]

-- The operations that report --------------------------------------------------------------------------------------------

theorem whiDue_reports (m : SMap Nat) (s : State) : Reports s { s with whiDue := m } := rfl
theorem whiWait_reports (l : List Nat) (s : State) : Reports s { s with whiWait := l } := rfl
theorem ovfNext_reports (l : List Nat) (s : State) : Reports s { s with ovfNext := l } := rfl
theorem wr_reports (p : Page) (off : Nat) (v : Word) (s : State) : Reports s (wr p off v s) := rfl
theorem wf_reports (p : Page) (off hi lo v : Nat) (s : State) : Reports s (wf p off hi lo v s) := wr_reports ..
theorem wb_reports (p : Page) (off i : Nat) (b : Bool) (s : State) : Reports s (wb p off i b s) := wf_reports ..
theorem bump_reports (p : Page) (off hi lo n : Nat) (s : State) : Reports s (bump p off hi lo n s) := wf_reports ..
theorem wr64_reports (p : Page) (off v : Nat) (s : State) : Reports s (wr64 p off v s) :=
  (wr_reports ..).trans (wr_reports ..)
theorem wrQ_reports (q : Requester) (p : Page) (off : Nat) (v : Word) (s : State) : Reports s (wrQ q p off v s) := rfl
theorem emit_reports (o : Out) (s : State) : Reports s (emit o s) := rfl
theorem say_reports (k : OutKind) (args : List Nat) (s : State) : Reports s (say k args s) := rfl
theorem srcPend_reports (n : Nat) (s : State) : Reports s (srcPend n s) := wf_reports ..
theorem srcTimer_reports (n : Nat) (s : State) : Reports s (srcTimer n s) := by
  unfold srcTimer
  dsimp only
  exact (wb_reports ..).trans (whiDue_reports ..)

theorem srcTry_reports (n : Nat) (s : State) : Reports s (srcTry n s) := by
  unfold srcTry
  exact Reports.ite ((whiWait_reports ..).trans (srcPend_reports ..)) (Reports.refl s)

/-- One event of a source (R668, R669). -/
theorem fire_reports (n : Nat) (s : State) : Reports s (fire n s) := by
  unfold fire
  dsimp only
  exact (Reports.ite ((wf_reports ..).trans (srcTimer_reports ..)) (wf_reports ..)).trans (srcTry_reports ..)

/-- One event of a die or a region source (R668). -/
theorem raise_reports (n : Nat) (s : State) : Reports s (raise n s) := by
  unfold raise
  exact Reports.ite (fire_reports n s) (Reports.ite (Reports.refl s) (say_reports ..))

theorem fireRgn_reports (r i : Nat) (s : State) : Reports s (fireRgn r i s) := raise_reports _ s

/-- Events added to a counter (R681). -/
theorem counterAdd_reports (p : Page) (valOff ovfSrc i n : Nat) (s : State) : Reports s (counterAdd p valOff ovfSrc i n s) := by
  unfold counterAdd
  dsimp only
  refine Reports.ite (wr64_reports ..) (Reports.trans ?_ (raise_reports ..))
  rfl

theorem countPage_reports (p : Page) (num valOff ovfSrc code qual n : Nat) (s : State) :
    Reports s (countPage p num valOff ovfSrc code qual n s) := by
  unfold countPage
  exact Reports.ite (Reports.refl s)
    (Reports.foldRange (fun i s => Reports.ite (counterAdd_reports p valOff ovfSrc i n s) (Reports.refl s)) num s)

theorem countDie_reports (code qual n : Nat) (s : State) : Reports s (countDie code qual n s) := countPage_reports ..
theorem countRgn_reports (r code n : Nat) (s : State) : Reports s (countRgn r code n s) := countPage_reports ..

theorem armSnapshot_reports (s : State) : Reports s (armSnapshot s) := by
  unfold armSnapshot
  split
  · exact Reports.refl s
  · rfl

/-- A trigger of a sense converter (R648). -/
theorem snsTrigger_reports (r b : Nat) (s : State) : Reports s (snsTrigger r b s) := by
  unfold snsTrigger
  dsimp only
  exact Reports.ite (Reports.refl s) (Reports.ite (Reports.ite rfl rfl) rfl)

theorem evselAct_reports (p : Page) (b i : Nat) (s : State) : Reports s (evselAct p b i s) := by
  unfold evselAct
  dsimp only
  split
  · refine Reports.trans (t := { s with evHold := SMap.set 0 s.evHold (p.base + i) (now s + 10 * usec) }) rfl ?_
    split
    · exact armSnapshot_reports _
    · exact Reports.foldl (fun s r => snsTrigger_reports r 3 s) _ _
    · exact Reports.refl _
  · exact Reports.refl s

/-- An event recorded in a page (R739–R742). -/
theorem recordErr_reports (p : Page) (b : Nat) (s : State) : Reports s (recordErr p b s) := by
  unfold recordErr
  dsimp only
  refine Reports.trans ?_ (Reports.foldRange (fun i s => evselAct_reports _ b i s) 4 _)
  exact ((wb_reports ..).trans (bump_reports ..)).trans (Reports.ite (raise_reports ..) (Reports.refl _))

theorem unitEvt_reports (c slot b : Nat) (s : State) : Reports s (unitEvt c slot b s) := by
  unfold unitEvt
  exact ((wb_reports ..).trans (recordErr_reports ..)).trans (fireRgn_reports ..)

theorem recIf_reports (b : Bool) (p : Page) (e : Nat) (s : State) : Reports s (recIf b p e s) := by
  unfold recIf
  exact Reports.ite (recordErr_reports p e s) (Reports.refl s)

/-- A write of a register by its fields' access codes (R20–R24). -/
theorem putReg_reports (p : Page) (off : Nat) (held : Nat → Bool) (v : Word) (s : State) : Reports s (putReg p off held v s) := by
  unfold putReg recWrite
  dsimp only
  exact (((wr_reports ..).trans (recIf_reports ..)).trans (recIf_reports ..)).trans (recIf_reports ..)

theorem putPlain_reports (p : Page) (off : Nat) (v : Word) (s : State) : Reports s (putPlain p off v s) := putReg_reports ..

theorem putBank_reports (q : Requester) (p : Page) (off : Nat) (v : Word) (s : State) : Reports s (putBank q p off v s) := by
  unfold putBank recWrite
  dsimp only
  exact (((wrQ_reports ..).trans (recIf_reports ..)).trans (recIf_reports ..)).trans (recIf_reports ..)

/-- A guarded command reports, where the command itself does (R361, R726). -/
theorem guardWrite_reports (q : Requester) (p : Page) (off : Nat) (f : State → State) (s : State) (hf : Reports s (f s)) :
    Reports s (guardWrite q p off f s) := by
  unfold guardWrite
  exact Reports.ite (say_reports ..) (Reports.ite (say_reports ..) hf)

theorem guardRead_reports (q : Requester) (p : Page) (f : State → Word × State) (s : State) (hf : Reports s (f s).2) :
    Reports s (guardRead q p f s) := by
  unfold guardRead
  exact Reports.ite (say_reports ..) (hf.trans (say_reports ..))

end Sys2Proof.Machine
end

