-- ==== Sys2Proof/Laws/Memory.lean ====
section
/-! SUPPORT. Stack memory: a byte reads as it was written, a write leaves every other byte, and every operation over memory keeps its
canonical form. -/

namespace Sys2Proof.Machine

/-- Two bytes of the map have one key only if they are one byte. -/
theorem memKey_inj {n m a b : Nat} (ha : a < 2 ^ 36) (hb : b < 2 ^ 36) (h : memKey n a = memKey m b) : n = m ∧ a = b := by
  simp only [memKey] at h; omega

@[simp] theorem locByte_locPut_same (n a : Nat) (b : Byte) (s : State) : locByte n a (locPut n a b s) = b := by
  simp [locByte, locPut]

theorem locByte_locPut_other {n m a c : Nat} (b : Byte) (s : State) (ha : a < 2 ^ 36) (hc : c < 2 ^ 36) (h : ¬ (n = m ∧ a = c)) :
    locByte m c (locPut n a b s) = locByte m c s := by
  simp only [locByte, locPut]
  exact SMap.get_set_other _ _ _ _ (fun e => h (memKey_inj ha hc e))

/-- A local address of the map fits a byte's key (R375). -/
theorem placeOf_lt {a n l : Nat} {s : State} (h : placeOf a s = some (n, l)) : n < 20 ∧ l < stackSize := by
  simp only [placeOf, mapTop, groupSize, stackSize] at h ⊢
  by_cases h1 : 0xB400000000 ≤ a
  · simp [h1] at h
  · by_cases h2 : interleaved (a / 0x2400000000) s = true <;> simp [h1, h2] at h <;> omega

/-- An update of memory leaves how addresses lie on stacks. -/
theorem placeOf_of_regs {s t : State} (h : t.regs = s.regs) (a : Nat) : placeOf a t = placeOf a s := by
  simp [placeOf, interleaved, rb, rf, rd, h]

@[simp] theorem placeOf_locPut (n l : Nat) (b : Byte) (s : State) (a : Nat) : placeOf a (locPut n l b s) = placeOf a s :=
  placeOf_of_regs rfl a

-- The canonical form ------------------------------------------------------------------------------------------------------

theorem reset_memOk : State.reset.memOk := by
  show Memory.wf [] = true
  rfl

theorem memOk_of_mem {s t : State} (h : t.mem = s.mem) (hs : s.memOk) : t.memOk := by
  unfold State.memOk at *
  rw [h]; exact hs

theorem Reports.memOk {s t : State} (h : Reports s t) (hs : s.memOk) : t.memOk := memOk_of_mem h.mem hs

theorem locPut_memOk {s : State} (n a : Nat) (b : Byte) (hs : s.memOk) : (locPut n a b s).memOk := SMap.wf_set _ _ hs

theorem locWrite_memOk (n : Nat) (bs : List Byte) : ∀ (a : Nat) (s : State), s.memOk → (locWrite n a bs s).memOk := by
  induction bs with
  | nil => exact fun _ _ h => h
  | cons b bs ih => exact fun a s h => ih (a + 1) _ (locPut_memOk n a b h)

theorem memPut_memOk {s : State} (a : Nat) (b : Byte) (hs : s.memOk) : (memPut a b s).memOk := by
  unfold memPut
  split
  · exact hs
  · exact locPut_memOk _ _ _ hs

theorem memWrite_memOk (bs : List Byte) : ∀ (a : Nat) (s : State), s.memOk → (memWrite a bs s).memOk := by
  induction bs with
  | nil => exact fun _ _ h => h
  | cons b bs ih => exact fun a s h => ih (a + 1) _ (memPut_memOk a b h)

-- Writes change memory alone ------------------------------------------------------------------------------------------------

theorem memPut_frame (a : Nat) (b : Byte) (s : State) : memPut a b s = { s with mem := (memPut a b s).mem } := by
  unfold memPut
  split <;> rfl

theorem memWrite_frame (bs : List Byte) : ∀ (a : Nat) (s : State), memWrite a bs s = { s with mem := (memWrite a bs s).mem } := by
  induction bs with
  | nil => exact fun _ _ => rfl
  | cons b bs ih =>
    intro a s
    have h1 := ih (a + 1) (memPut a b s)
    have h2 := memPut_frame a b s
    show memWrite (a + 1) bs (memPut a b s) = { s with mem := (memWrite (a + 1) bs (memPut a b s)).mem }
    rw [h1, h2]

theorem locWrite_frame (n : Nat) (bs : List Byte) : ∀ (a : Nat) (s : State), locWrite n a bs s = { s with mem := (locWrite n a bs s).mem } := by
  induction bs with
  | nil => exact fun _ _ => rfl
  | cons b bs ih =>
    intro a s
    have h1 := ih (a + 1) (locPut n a b s)
    show locWrite n (a + 1) bs (locPut n a b s) = { s with mem := (locWrite n (a + 1) bs (locPut n a b s)).mem }
    rw [h1]
    rfl

/-- A byte below or above the bytes written reads as before. -/
theorem locByte_locWrite_other (n : Nat) (bs : List Byte) : ∀ (a c : Nat) (s : State), (c < a ∨ a + bs.length ≤ c) → a + bs.length ≤ 2 ^ 36 →
    c < 2 ^ 36 → locByte n c (locWrite n a bs s) = locByte n c s := by
  induction bs with
  | nil => exact fun _ _ _ _ _ _ => rfl
  | cons b bs ih =>
    intro a c s h ha hc
    simp only [List.length_cons] at h ha
    have h1 := ih (a + 1) c (locPut n a b s) (by omega) (by omega) hc
    show locByte n c (locWrite n (a + 1) bs (locPut n a b s)) = locByte n c s
    rw [h1]
    exact locByte_locPut_other b s (by omega) hc (by omega)

end Sys2Proof.Machine
end

