-- ==== Sys2Proof/Laws/Regs.lean ====
section
/-! SUPPORT. Registers: a register reads as it was last written, a write leaves every other register, and reporting an event changes only
the registers that `reportReg` names. -/

namespace Sys2Proof.Machine

/-- No two registers share a word. -/
theorem Page.key_inj {p q : Page} {a b : Nat} (hp : p.real = true) (hq : q.real = true) (ha : a < 4096) (hb : b < 4096)
    (h : p.base + a = q.base + b) : p = q ∧ a = b := by
  cases p <;> cases q <;> simp only [Page.real, Page.base, decide_eq_true_eq, Page.die.injEq, Page.rgn.injEq, Page.clu.injEq,
    Page.unit.injEq, reduceCtorEq, false_and] at hp hq h ⊢ <;> omega

/-- A register reads as it was written. -/
@[simp] theorem rd_wr_same (p : Page) (off : Nat) (v : Word) (s : State) : rd p off (wr p off v s) = v := by
  simp [rd, wr]

/-- A write leaves every word that lies elsewhere. -/
theorem rd_wr_key {p q : Page} {a b : Nat} (v : Word) (s : State) (h : p.base + a ≠ q.base + b) : rd q b (wr p a v s) = rd q b s := by
  simp [rd, wr, SMap.get_set_other _ _ _ _ h]

/-- A write leaves every other register. -/
theorem rd_wr_other {p q : Page} {a b : Nat} (v : Word) (s : State) (hp : p.real = true) (hq : q.real = true) (ha : a < 4096)
    (hb : b < 4096) (h : ¬ (p = q ∧ a = b)) : rd q b (wr p a v s) = rd q b s :=
  rd_wr_key v s (fun e => h (Page.key_inj hp hq ha hb e))

/-- Updates other than of registers leave every register. -/
theorem rd_of_regs {s t : State} (h : t.regs = s.regs) (p : Page) (off : Nat) : rd p off t = rd p off s := by
  simp [rd, h]

theorem sameRegs.refl (n : Page → Nat → Bool) (s : State) : sameRegs n s s := fun _ _ _ _ _ _ => rfl

theorem sameRegs.trans {n : Page → Nat → Bool} {s t u : State} (h : sameRegs n s t) (k : sameRegs n t u) : sameRegs n s u :=
  fun p off hp ho hn hr => (k p off hp ho hn hr).trans (h p off hp ho hn hr)

theorem sameRegs.ofRegs (n : Page → Nat → Bool) {s t : State} (h : t.regs = s.regs) : sameRegs n s t :=
  fun p off _ _ _ _ => rd_of_regs h p off

theorem sameRegs.foldl {n : Page → Nat → Bool} {β : Type} {f : State → β → State} (hf : ∀ s b, sameRegs n s (f s b)) (l : List β)
    (s : State) : sameRegs n s (l.foldl f s) := by
  induction l generalizing s with
  | nil => exact sameRegs.refl n s
  | cons b l ih => exact (hf s b).trans (ih (f s b))

theorem sameRegs.ite {n : Page → Nat → Bool} {c : Prop} [Decidable c] {s t u : State} (ht : c → sameRegs n s t) (hu : ¬ c → sameRegs n s u) :
    sameRegs n s (if c then t else u) := by
  split
  · exact ht ‹_›
  · exact hu ‹_›

/-- A write of a register that is named, or that reporting may change, leaves every other. -/
theorem wr_sameRegs {n : Page → Nat → Bool} {p : Page} {off : Nat} (v : Word) (s : State) (hp : p.real = true) (ho : off < 4096)
    (h : n p off = true ∨ reportReg p off = true) : sameRegs n s (wr p off v s) := by
  intro q b hq hb hn hr
  refine rd_wr_other v s hp hq ho hb ?_
  rintro ⟨rfl, rfl⟩
  simp [hn, hr] at h

theorem wf_sameRegs {n : Page → Nat → Bool} {p : Page} {off : Nat} (hi lo v : Nat) (s : State) (hp : p.real = true) (ho : off < 4096)
    (h : n p off = true ∨ reportReg p off = true) : sameRegs n s (wf p off hi lo v s) := wr_sameRegs _ s hp ho h

theorem wb_sameRegs {n : Page → Nat → Bool} {p : Page} {off : Nat} (i : Nat) (b : Bool) (s : State) (hp : p.real = true) (ho : off < 4096)
    (h : n p off = true ∨ reportReg p off = true) : sameRegs n s (wb p off i b s) := wf_sameRegs i i (b2n b) s hp ho h

theorem bump_sameRegs {n : Page → Nat → Bool} {p : Page} {off : Nat} (hi lo k : Nat) (s : State) (hp : p.real = true) (ho : off < 4096)
    (h : n p off = true ∨ reportReg p off = true) : sameRegs n s (bump p off hi lo k s) := wf_sameRegs hi lo _ s hp ho h

-- Whistle sources ---------------------------------------------------------------------------------------------------------

/-- The registers of a source are report registers (R678). -/
theorem srcPage_real {n : Nat} (h : n < 2048) : (srcPage n).real = true := by
  simp [srcPage, Page.real]; omega

theorem srcPage_report {n : Nat} (h : n < 2048) (off : Nat) : reportReg (srcPage n) off = true := by
  simp [srcPage, reportReg]; omega

theorem srcOff_lt {base : Nat} (n : Nat) (h : base ≤ 0x900) : srcOff base n < 4096 := by
  simp only [srcOff]; omega

theorem whiDue_sameRegs (n : Page → Nat → Bool) (d : SMap Nat) (s : State) : sameRegs n s { s with whiDue := d } :=
  sameRegs.ofRegs n rfl

theorem srcTry_sameRegs (m : Page → Nat → Bool) {n : Nat} (h : n < 2048) (s : State) : sameRegs m s (srcTry n s) := by
  unfold srcTry
  refine sameRegs.ite (fun _ => ?_) (fun _ => sameRegs.refl m s)
  exact sameRegs.trans (t := { s with whiWait := s.whiWait.filter (· ≠ n) }) (sameRegs.ofRegs m rfl)
    (wf_sameRegs _ _ _ _ (srcPage_real h) (srcOff_lt n (by decide)) (.inr (srcPage_report h _)))

/-- An event of a source touches only report registers (R668, R669). -/
theorem fire_sameRegs (m : Page → Nat → Bool) {n : Nat} (h : n < 2048) (s : State) : sameRegs m s (fire n s) := by
  have ho : srcOff 0x900 n < 4096 := srcOff_lt n (by decide)
  have hr := srcPage_report h (srcOff 0x900 n)
  unfold fire
  dsimp only
  refine sameRegs.trans ?_ (srcTry_sameRegs m h _)
  refine sameRegs.ite (fun _ => ?_) (fun _ => wf_sameRegs _ _ _ _ (srcPage_real h) ho (.inr hr))
  refine sameRegs.trans (wf_sameRegs 15 0 (satAdd 16 (getF (rd (srcPage n) (srcOff 0x900 n) s) 15 0) 1) s (srcPage_real h) ho (.inr hr)) ?_
  unfold srcTimer
  dsimp only
  exact (wb_sameRegs 29 true _ (srcPage_real h) ho (.inr hr)).trans (whiDue_sameRegs m _ _)

/-- An event of any source touches only report registers. -/
theorem raise_sameRegs (m : Page → Nat → Bool) (n : Nat) (s : State) : sameRegs m s (raise n s) := by
  unfold raise
  refine sameRegs.ite (fun h => fire_sameRegs m (by omega) s) (fun _ => ?_)
  exact sameRegs.ite (fun _ => sameRegs.refl m s) (fun _ => sameRegs.ofRegs m rfl)

theorem fireRgn_sameRegs (m : Page → Nat → Bool) (r i : Nat) (s : State) : sameRegs m s (fireRgn r i s) := raise_sameRegs m _ s

-- Page errors -----------------------------------------------------------------------------------------------------------------

theorem Page.errPage_real {p : Page} (h : p.real = true) : p.errPage.real = true := by
  cases p <;> simp [Page.real, Page.errPage] at h ⊢ <;> omega

theorem snsTrigger_sameRegs (m : Page → Nat → Bool) {r : Nat} (h : r < 64) (b : Nat) (s : State) : sameRegs m s (snsTrigger r b s) := by
  have hp : (pgSns r).real = true := by simp [pgSns, Page.real, h]
  have h1 : reportReg (pgSns r) 0x104 = true := by simp [pgSns, reportReg]
  have h2 : reportReg (pgSns r) 0x110 = true := by simp [pgSns, reportReg]
  unfold snsTrigger
  dsimp only
  refine sameRegs.ite (fun _ => sameRegs.refl m s) (fun _ => sameRegs.ite (fun _ => ?_) (fun _ => ?_))
  · exact sameRegs.ite (fun _ => sameRegs.ofRegs m rfl)
      (fun _ => (wb_sameRegs _ _ _ hp (by decide) (.inr h2)).trans (wb_sameRegs _ _ _ hp (by decide) (.inr h1)))
  · exact sameRegs.trans (t := setRgn r _ s) (sameRegs.ofRegs m rfl) (wb_sameRegs _ _ _ hp (by decide) (.inr h1))

theorem regionOf_lt {c : Nat} (h : c < 16384) : regionOf c < 64 := by
  simp only [regionOf]; omega

theorem Page.snsRegions_lt {p : Page} (h : p.real = true) : ∀ r ∈ p.snsRegions, r < 64 := by
  cases p <;> simp [Page.real, Page.snsRegions] at h ⊢
  · exact h.1
  · exact regionOf_lt h
  · exact regionOf_lt h.1

theorem foldl_sameRegs_mem {m : Page → Nat → Bool} {β : Type} {f : State → β → State} {l : List β}
    (hf : ∀ s, ∀ b ∈ l, sameRegs m s (f s b)) (s : State) : sameRegs m s (l.foldl f s) := by
  induction l generalizing s with
  | nil => exact sameRegs.refl m s
  | cons b l ih => exact (hf s b (by simp)).trans (ih (fun s c hc => hf s c (by simp [hc])) (f s b))

theorem evselAct_sameRegs (m : Page → Nat → Bool) {p : Page} (h : p.real = true) (b i : Nat) (s : State) :
    sameRegs m s (evselAct p b i s) := by
  unfold evselAct
  dsimp only
  split
  · refine sameRegs.trans (t := { s with evHold := SMap.set 0 s.evHold (p.base + i) (now s + 10 * usec) }) (sameRegs.ofRegs m rfl) ?_
    split
    · unfold armSnapshot
      split
      · exact sameRegs.refl m _
      · exact sameRegs.ofRegs m rfl
    · exact foldl_sameRegs_mem (fun s r hr => snsTrigger_sameRegs m (Page.snsRegions_lt h r hr) 3 s) _
    · exact sameRegs.refl m _
  · exact sameRegs.refl m _

/-- An event recorded in a page touches only report registers (R739–R742). -/
theorem recordErr_sameRegs (m : Page → Nat → Bool) {p : Page} (h : p.real = true) (b : Nat) (s : State) :
    sameRegs m s (recordErr p b s) := by
  have hp := Page.errPage_real h
  have h1 : reportReg p.errPage 0x10 = true := by simp [reportReg]
  have h2 : reportReg p.errPage 0x1C = true := by simp [reportReg]
  unfold recordErr
  dsimp only
  refine sameRegs.trans ?_ (sameRegs.foldl (fun s i => evselAct_sameRegs m hp b i s) _ _)
  refine sameRegs.trans ((wb_sameRegs b true s hp (by decide) (.inr h1)).trans (bump_sameRegs 31 0 1 _ hp (by decide) (.inr h2))) ?_
  exact sameRegs.ite (fun _ => raise_sameRegs m _ _) (fun _ => sameRegs.refl m _)

theorem recIf_sameRegs (m : Page → Nat → Bool) {p : Page} (h : p.real = true) (b : Bool) (e : Nat) (s : State) :
    sameRegs m s (recIf b p e s) := by
  unfold recIf
  exact sameRegs.ite (fun _ => recordErr_sameRegs m h e s) (fun _ => sameRegs.refl m s)

/-- A register write by access codes touches that register and report registers only (R20–R24). -/
theorem putReg_sameRegs {m : Page → Nat → Bool} {p : Page} {off : Nat} (hp : p.real = true) (ho : off < 4096) (hm : m p off = true)
    (held : Nat → Bool) (v : Word) (s : State) : sameRegs m s (putReg p off held v s) := by
  unfold putReg recWrite
  dsimp only
  exact (((wr_sameRegs _ s hp ho (.inl hm)).trans (recIf_sameRegs m hp _ _ _)).trans (recIf_sameRegs m hp _ _ _)).trans (recIf_sameRegs m hp _ _ _)

end Sys2Proof.Machine
end

