-- ==== Sys2Proof/Tests/Slice0.lean ====
section
/-! SUPPORT. The examples that the spec works out, ill-formed commands, single commands, and for every statement with hypotheses concrete
states and operands that meet them, clause by clause. -/

namespace Sys2Proof.Tests

open Machine

set_option Elab.async false

def s0 : State := State.reset
def rOn (s : State) : State := updRgn 0 (fun x => { x with off := false }) s
def sOn : State := rOn s0
def blk1 : Blk := { fmt := .a8, exp := 127, zb := false, sat := false, ufl := false, nh := true, man := [3, -2], cause := 0, pt := 1, sid := 2, bslot := 3 }
def lv : List Nat := List.replicate 136 1
def row7 : Row := { levels := lv, res := [0,0,0,0] }
/-- an image RUNNING in slot 3, pitch 2, cluster 0 in its pitch -/
def img3 : Slot := { Slot.vacant with st := .running, pitch := 2, pw := 1, ph := 1, slack := 2, window := 8, bslots := 4 }
def inPitch (s : State) : State := wr (.clu 0) 0x318 (0x12) s
def sImg : State := inPitch (updSlot 3 (fun _ => img3) sOn)
/-- Cells of a little-endian number of n bytes at an address of stack 0. -/
def cell (a n v : Nat) : List Host.Cell :=
  ((leBytes n v).zipIdx.map (fun e => (a + e.2, e.1))).filter (fun e => e.2 != 0)
/-- A manifest at 0x10000: one BF16 tensor of one element, one shard of two bytes from a source of a kind, port and address, one tile; the
shard's bytes are at 0x40000, and their digest with the shard. -/
def mfst (kind port addr : Nat) : List Host.Cell :=
  let a := 0x10000
  cell a 4 0x464D5A4D ++ cell (a + 4) 2 1 ++ cell (a + 6) 1 1 ++ cell (a + 8) 8 (464 + sigLen) ++ cell (a + 0x14) 2 4 ++ cell (a + 0x16) 2 4 ++
  cell (a + 0x18) 4 1 ++ cell (a + 0x1C) 4 1 ++ cell (a + 0x20) 4 1 ++ cell (a + 0x24) 4 1 ++ cell (a + 0x30) 8 256 ++ cell (a + 0x38) 8 288 ++
  cell (a + 0x40) 8 416 ++ cell (a + 0x48) 8 432 ++ cell (a + 0x50) 8 464 ++ cell (a + 256) 1 3 ++ cell (a + 260) 4 1 ++ cell (a + 264) 4 1 ++
  cell (a + 268) 4 mfNone ++ cell (a + 272) 4 mfNone ++ cell (a + 288) 64 0x990aa82fe6ed2378fd0c59ccc79a88fba45bd4241773392452574cde26b5d332ad3b474942daf99939ead590e5706a32b33da3d2725299bcfba56bdc3b7c792d ++ cell (a + 288 + 69) 1 1 ++
  cell (a + 288 + 80) 8 2 ++ cell (a + 288 + 88) 8 2 ++ cell (a + 432) 1 kind ++ cell (a + 433) 1 port ++ cell (a + 440) 8 addr ++
  cell 0x40000 2 0x3F80
def sMan : State := { sOn with mem := mfst 1 0 0x40000 }
def sLd (st : Nat) (l : Loader) : State := { (setLd st sMan) with ld := l }
def ld0 : Loader := { Loader.idle with man := 0x10000, auto := 0, plane := 0, mode := 0 }

namespace Regs

def s0 : State := State.reset
def sSnap : State := wr pgCnt 0x204 7 (wr pgCnt 0x200 9 s0)
def sLk : State := { s0 with locks := SMap.set 0 s0.locks pgClk.base 7 }
def sLk2 : State := { s0 with locks := SMap.set 0 s0.locks pgClk.base 0xFFFF }
def sFen : State := updRgn 0 (fun x => { x with fenced := true }) s0
def cw : State := { (wr64 pgCnt 0x200 (2^48-1) (wr64 (pgRcn 63) 0x1B8 (2^48-1) s0)) with rgns := [(63, { Region.empty with off := false })] }

/-- Witness of the hypotheses of Obligations.StepIdle. -/
theorem witness_StepIdle :
  s0.pending = [] := by
  decide +kernel

/-- Witness of the hypotheses of Obligations.FieldsWriteApart. -/
theorem witness_FieldsWriteApart :
  ((∀ (f : Field), f ∈ (pgWhi.fields 264).getD [] → f.lo ≤ f.hi ∧ f.hi < 32) ∧ List.Pairwise (fun f g ↦ f.hi < g.lo ∨ g.hi < f.lo) ((pgWhi.fields 264).getD [])) ∧
  ((∀ (f : Field), f ∈ ((pgStk 3).fields 276).getD [] → f.lo ≤ f.hi ∧ f.hi < 32) ∧ List.Pairwise (fun f g ↦ f.hi < g.lo ∨ g.hi < f.lo) (((pgStk 3).fields 276).getD [])) := by
  repeat' apply And.intro
  all_goals decide +kernel

/-- Witness of the hypotheses of Obligations.RegisterWriteTakes. -/
theorem witness_RegisterWriteTakes :
  (pageOf 131328 = some (pgClk, 256) ∧ (pgClk.cls.fst = 3 ∨ pgClk.cls.fst = 5 ∨ pgClk.cls.fst = 32 ∨ pgClk.cls.fst = 35) ∧
    mayWrite Requester.lantern pgClk 256 = true ∧ pageOff pgClk s0 = false) ∧
  (pageOf (2 ^ 32 + 12544) = some (pgStv 0, 256) ∧
    ((pgStv 0).cls.fst = 3 ∨ (pgStv 0).cls.fst = 5 ∨ (pgStv 0).cls.fst = 32 ∨ (pgStv 0).cls.fst = 35) ∧
    mayWrite Requester.dzit (pgStv 0) 256 = true ∧ pageOff (pgStv 0) sOn = false) := by
  repeat' apply And.intro
  all_goals decide +kernel

/-- Witness of the hypotheses of Obligations.LatchedPair. -/
theorem witness_LatchedPair :
  (Requester.lantern ≠ Requester.mgmt ∧ reach Requester.lantern 327944 s0 = some (pgSec, 264) ∧
    reach Requester.lantern (327944 + 4) s0 = some (pgSec, 264 + 4) ∧ latchesHi pgSec 264 = true ∧ isLatched pgSec 264 = false ∧
    (pgSec.fields 264).isSome = true ∧ (pgSec.fields (264 + 4)).isSome = true ∧ pageOff pgSec s0 = false ∧ pageOff pgSec s0 = false) ∧
  (Requester.lantern ≠ Requester.mgmt ∧ reach Requester.lantern 983552 sSnap = some (pgCnt, 512) ∧
    reach Requester.lantern (983552 + 4) sSnap = some (pgCnt, 512 + 4) ∧ latchesHi pgCnt 512 = true ∧ isLatched pgCnt 512 = false ∧
    (pgCnt.fields 512).isSome = true ∧ (pgCnt.fields (512 + 4)).isSome = true ∧ pageOff pgCnt sSnap = false ∧ pageOff pgCnt sSnap = false) := by
  repeat' apply And.intro
  all_goals decide +kernel

/-- Witness of the hypotheses of Obligations.StatisticsAndInjection. -/
theorem witness_StatisticsAndInjection :
  (pageOf 131072 = some (pgClk, 0) ∧ pgClk.cls.fst ≠ 0 ∧ mayWrite Requester.dzit pgClk 8 = true ∧
    pageOff pgClk (wr pgClk 28 5 s0) = false ∧ locked pgClk (wr pgClk 28 5 s0) = false) ∧
  (pageOf (2 ^ 33 + 0) = some (Page.clu 0, 0) ∧ (Page.clu 0).cls.fst ≠ 0 ∧ mayWrite Requester.lantern (Page.clu 0) 8 = true ∧
    pageOff (Page.clu 0) (wb (Page.unit 0 67) 2076 7 true (wr (Page.clu 0) 16 5 sOn)) = false ∧
    locked (Page.clu 0) (wb (Page.unit 0 67) 2076 7 true (wr (Page.clu 0) 16 5 sOn)) = false) ∧
  (pageOf 131072 = some (pgClk, 0) ∧ pgClk.cls.fst ≠ 0 ∧ mayWrite Requester.lantern pgClk 24 = true ∧
    pageOff pgClk (wb pgClk 8 3 true s0) = false ∧ getF 259 31 9 = 0 ∧ rb pgClk 8 3 (wb pgClk 8 3 true s0) = true) ∧
  (pageOf 131072 = some (pgClk, 0) ∧ pgClk.cls.fst ≠ 0 ∧ mayWrite Requester.lantern pgClk 24 = true ∧
    pageOff pgClk (wr pgClk 28 4294967295 s0) = false ∧ getF 259 31 9 = 0 ∧ rb pgClk 8 3 (wr pgClk 28 4294967295 s0) = false) := by
  repeat' apply And.intro
  all_goals decide +kernel

/-- Witness of the hypotheses of Obligations.PageLockKeys. -/
theorem witness_PageLockKeys :
  (pageOf 131072 = some (pgClk, 0) ∧ pgClk.cls.fst ≠ 0 ∧ pageOff pgClk s0 = false) ∧
  (pageOf 131072 = some (pgClk, 0) ∧ pgClk.cls.fst ≠ 0 ∧ pageOff pgClk sLk2 = false) ∧
  (pageOf 131072 = some (pgClk, 0) ∧ pgClk.cls.fst ≠ 0 ∧ pageOff pgClk s0 = false ∧ Requester.mgmt ≠ Requester.lantern) ∧
  (pageOf 131072 = some (pgClk, 0) ∧ pgClk.cls.fst ≠ 0 ∧ pageOff pgClk sLk2 = false ∧ Requester.dzit ≠ Requester.lantern) ∧
  (pageOf 131072 = some (pgClk, 0) ∧ pgClk.cls.fst ≠ 0 ∧ pageOff pgClk s0 = false ∧ locked pgClk s0 = false) ∧
  (pageOf 131072 = some (pgClk, 0) ∧ pgClk.cls.fst ≠ 0 ∧ pageOff pgClk sLk = false ∧ getF 3 1 0 = 3) ∧
  (pageOf 131072 = some (pgClk, 0) ∧ pgClk.cls.fst ≠ 0 ∧ pageOff pgClk sLk2 = false ∧ getF 3 1 0 = 3) ∧
  (pageOf 851984 = some (pgAdm, 16) ∧ pgAdm.cls.fst ≠ 0 ∧ pageOff pgAdm s0 = false ∧ getF 0 1 0 = 0 ∧ getF 0 15 2 = 0) ∧
  (pageOf 131072 = some (pgClk, 0) ∧ pgClk.cls.fst ≠ 0 ∧ pageOff pgClk s0 = false ∧ getF 4294901760 1 0 = 0 ∧ getF 4294901760 15 2 = 0) ∧
  (pageOf 131072 = some (pgClk, 0) ∧ pgClk.cls.fst ≠ 0 ∧ pageOff pgClk s0 = false ∧ (locked pgClk s0 = true ∨ 0 = 0)) ∧
  (pageOf 131072 = some (pgClk, 0) ∧ pgClk.cls.fst ≠ 0 ∧ pageOff pgClk sLk2 = false ∧ (locked pgClk sLk2 = true ∨ 65535 = 0)) ∧
  (pageOf 131072 = some (pgClk, 0) ∧ pgClk.cls.fst ≠ 0 ∧ pageOff pgClk sLk = false ∧ locked pgClk sLk = true ∧
    SMap.get 0 sLk.locks pgClk.base = 7) ∧
  (pageOf 131072 = some (pgClk, 0) ∧ pgClk.cls.fst ≠ 0 ∧ pageOff pgClk sLk2 = false ∧ locked pgClk sLk2 = true ∧
    SMap.get 0 sLk2.locks pgClk.base = 65535) ∧
  (pageOf 131072 = some (pgClk, 0) ∧ pgClk.cls.fst ≠ 0 ∧ pageOff pgClk sLk = false ∧ locked pgClk sLk = true ∧
    SMap.get 0 sLk.locks pgClk.base ≠ 0) := by
  repeat' apply And.intro
  all_goals decide +kernel

/-- Witness of the hypotheses of Obligations.ReservedPage. -/
theorem witness_ReservedPage :
  (pageOf 40960 = some (Page.die 10, 0) ∧ (Page.die 10).cls.fst = 0 ∧ pageOff (Page.die 10) s0 = false) ∧
  (pageOf (2 ^ 32 + 28668) = some (Page.rgn 0 6, 4092) ∧ (Page.rgn 0 6).cls.fst = 0 ∧ pageOff (Page.rgn 0 6) sOn = false) ∧
  (pageOf 16777212 = some (Page.die 4095, 4092) ∧ (Page.die 4095).cls.fst = 0 ∧ pageOff (Page.die 4095) s0 = false ∧
    mayWrite Requester.dzit (Page.die 4095) 4092 = true) ∧
  (pageOf (2 ^ 32 + 28668) = some (Page.rgn 0 6, 4092) ∧ (Page.rgn 0 6).cls.fst = 0 ∧ pageOff (Page.rgn 0 6) s0 = true ∧
    mayWrite Requester.lantern (Page.rgn 0 6) 4092 = true) := by
  repeat' apply And.intro
  all_goals decide +kernel

/-- Witness of the hypotheses of Obligations.GuylineAccess. -/
theorem witness_GuylineAccess :
  (reach Requester.lantern (2 ^ 32 + 12544) sFen = some (Page.rgn 0 3, 256) ∧ pageOff (Page.rgn 0 3) sFen = true) ∧
  (reach Requester.lantern (2 ^ 32 + 12544) sFen = some (Page.rgn 0 3, 256) ∧ pageOff (Page.rgn 0 3) sFen = true ∧
    mayWrite Requester.lantern (Page.rgn 0 3) 256 = true) ∧
  (reach Requester.mgmt (2 ^ 33 + 2048) sOn = some (Page.unit 0 0, 2048) ∧ pageOff (Page.unit 0 0) sOn = false) ∧
  (reach Requester.dzit (2 ^ 32 + 66060548) cw = some (Page.rgn 63 0, 260) ∧ pageOff (Page.rgn 63 0) cw = false) ∧
  (reach Requester.lantern (2 ^ 32 + 12544) sOn = some (Page.rgn 0 3, 256) ∧ pageOff (Page.rgn 0 3) sOn = false ∧
    mayWrite Requester.lantern (Page.rgn 0 3) 256 = true ∧ ((Page.rgn 0 3).cls.fst = 32 ∨ (Page.rgn 0 3).cls.fst = 35) ∧
    (Page.rgn 0 3).real = true) ∧
  (reach Requester.dzit (2 ^ 32 + 66060548) cw = some (Page.rgn 63 0, 260) ∧ pageOff (Page.rgn 63 0) cw = false ∧
    mayWrite Requester.dzit (Page.rgn 63 0) 260 = true ∧ ((Page.rgn 63 0).cls.fst = 32 ∨ (Page.rgn 63 0).cls.fst = 35) ∧
    (Page.rgn 63 0).real = true) := by
  repeat' apply And.intro
  all_goals decide +kernel

/-- Witness of the hypotheses of Obligations.UnmappedAccess. -/
theorem witness_UnmappedAccess :
  (pageOf (2 ^ 39) = none ∧ Requester.mgmt ≠ Requester.lantern) ∧
  pageOf (2 ^ 39) = none ∧
  pageOf (2 ^ 24) = none := by
  repeat' apply And.intro
  all_goals decide +kernel

/-- Witness of the hypotheses of Obligations.CounterWrap. -/
theorem witness_CounterWrap :
  (2 ^ 48 ≤ rd64 pgCnt (512 + 8 * 0) cw + 1 ∧ rd64 pgCnt (512 + 8 * 0) cw < 2 ^ 48) ∧
  (2 ^ 48 ≤ rd64 pgCnt (512 + 8 * 31) (wr64 pgCnt 760 (2 ^ 48 - 1) s0) + 1 ∧
    rd64 pgCnt (512 + 8 * 31) (wr64 pgCnt 760 (2 ^ 48 - 1) s0) < 2 ^ 48) ∧
  (2 ^ 48 - 1 < 2 ^ 48 ∧ (rgnAt 63 cw).off = false ∧ 2 ^ 48 ≤ rd64 (pgRcn 63) (384 + 8 * 7) cw + (2 ^ 48 - 1) ∧
    rd64 (pgRcn 63) (384 + 8 * 7) cw < 2 ^ 48) := by
  repeat' apply And.intro
  all_goals decide +kernel

/-- Witness of the hypotheses of Obligations.RoundNearestEven. -/
theorem witness_RoundNearestEven :
  0 < 2 ∧
  0 < 3 ∧
  2 * (rneDiv 5 2 * ↑2 - 5).natAbs = 2 ∧
  2 * (rneDiv (-7) 2 * ↑2 - -7).natAbs = 2 := by
  repeat' apply And.intro
  all_goals decide +kernel

end Regs

namespace Units

def s0 : State := State.reset
def rOn (s : State) : State := updRgn 0 (fun x => { x with off := false }) s
def blk1 : Blk := { fmt := .a8, exp := 127, zb := false, sat := false, ufl := false, nh := true, man := [3, -2], cause := 0, pt := 1, sid := 2, bslot := 3 }
def lv : List Nat := List.replicate 136 1
/-- cluster 0 in step 4, unit 0 with action entry e -/
def acting (e : Nat) : State := updClu 0 (fun cl => { cl with uat := [(1, e)], word := 1, acts := [0], next := 5, busy := true, pantry := [(0, .blk blk1)] }) (rOn s0)
def inp (s : State) : List Blk × State := ((takeInputs 0 0 (actionOf (cluAt 0 s) 0) ((cluAt 0 s).next - 1) [] s).getD ([], s))
-- FORWARD (kind 2), dest 1 (reduction), daddr 5
def sFwd : State := acting (2 + 2 ^ 17 + 5 * 2 ^ 20)
def sFwd0 : State := acting (2)
def sIll : State := acting (1 + 3 * 4)      -- READ of plane code 3
def sPln : State := acting (1 + 1 * 4)      -- READ of plane 0, BLANK
def sRead : State := updPlane 0 0 0 (fun y => { y with st := .resident }) (acting (1 + 1 * 4 + 2^17 + 5*2^20))
def opx : ReadOp := { plane := 0, range := 0, dest := 0, daddr := 0, pair := 0, wide := false, half := [blk1,blk1,blk1,blk1], step := 4, need := 0, trims := { eff := 0, cols := [] } }
def sCur : State := wr64 (.unit 0 0) 0x824 (2^48-1) (updUnit 0 0 (fun x => { x with cur := some opx, holding := 7 }) sRead)
def sCur2 : State := updUnit 0 0 (fun x => { x with cur := some { opx with dest := 1, daddr := 5 }, holding := 7 }) sRead
def x1 := { opx with dest := 1, daddr := 5 }
def pq : PgmReq := { unit := ukey 5 67, plane := 1, kind := .spare }
def pq2 : PgmReq := { unit := ukey 5 66, plane := 1, kind := .load }
def sQ : State := updRgn 0 (fun x => { x with queue := [pq, pq2] }) (rOn s0)
def row7 : Row := { levels := lv, res := [1,1,1,1] }
def pgm (k : PgmKind) (row pulses : Nat) : State := wf (.unit 0 0) 0x830 8 2 row (updPlane 0 0 1 (fun y => { y with st := .programming, kind := k, pulses := pulses, goal := [(row, row7)], rows := [(row, row7)] })
  (updRgn 0 (fun x => { x with active := [{ unit := 0, plane := 1, kind := k }] }) (rOn s0)))

abbrev actOf (s : State) : Nat := actionOf (cluAt 0 s) 0
abbrev ready (s : State) : Prop := unitReady 0 0 0 [] (inp s).1 s (inp s).2

/-- Witness of the hypotheses of Obligations.UnitReads. -/
theorem witness_UnitReads :
  (ready sFwd ∧ uaKind (actOf sFwd) = 2 ∧ uaDest (actOf sFwd) = 1 ∧
    pathDown 0 (outPath 0 0 1 (uaDaddr (actOf sFwd)) (inp sFwd).2) (inp sFwd).2 = false) ∧
  (ready sFwd0 ∧ uaKind (actOf sFwd0) = 2) ∧
  (ready sIll ∧ uaKind (actOf sIll) ≠ 2 ∧ readIllegal (actOf sIll) (unitAt 0 0 sIll) (rb (Page.unit 0 0) 2060 0 sIll) (inp sIll).1 = true) ∧
  (ready sPln ∧ uaKind (actOf sPln) ≠ 2 ∧ readIllegal (actOf sPln) (unitAt 0 0 sPln) (rb (Page.unit 0 0) 2060 0 sPln) (inp sPln).1 = false ∧
    ((unitAt 0 0 sPln).plane (readPlane (actOf sPln) (inp sPln).1)).st ≠ PlaneSt.resident) ∧
  (ready sRead ∧ uaKind (actOf sRead) ≠ 2 ∧ readIllegal (actOf sRead) (unitAt 0 0 sRead) (rb (Page.unit 0 0) 2060 0 sRead) (inp sRead).1 = false ∧
    ((unitAt 0 0 sRead).plane (readPlane (actOf sRead) (inp sRead).1)).st = PlaneSt.resident ∧
    allZero (descFor 0 (uaDesc (actOf sRead)) (wideFor 0 (uaDesc (actOf sRead)) sRead) sRead) (inp sRead).1 (fun i =>
      if (descFor 0 (uaDesc (actOf sRead)) (wideFor 0 (uaDesc (actOf sRead)) sRead) sRead).alnSr then
        some (draw16 0 (unitOrigin 0 0) (nth (zeroBlk .a8 false 0 0 0 0) (inp sRead).1 0).sid ((cluAt 0 sRead).next - 1) i) else none) = false) := by
  simp only [ready, unitReady]
  repeat' apply And.intro
  all_goals decide +kernel

def pr : PgmReq := { unit := ukey 5 3, plane := 0, kind := .refresh }
def pl : PgmReq := { unit := ukey 5 3, plane := 1, kind := .load }
/-- a refresh that gave its slot up before row 127, and one with a row in progress that a load of the other plane meets -/
def sPause : State := updPlane 5 3 0 (fun y => { y with st := .programming, kind := .refresh, paused := some 127 })
  (updRgn 0 (fun x => { x with queue := [pr] }) (rOn s0))
def sWay : State := updPlane 5 3 0 (fun y => { y with st := .programming, kind := .refresh, pulses := 2 })
  (updRgn 0 (fun x => { x with queue := [pl], active := [pr] }) (rOn s0))
abbrev oldest (q : PgmReq) (s : State) : Prop := (rgnAt 0 s).queue.find? (fun q => mayGrant 0 q s || (inTheWay 0 q s).isSome) = some q

/-- Witness of the hypotheses of Obligations.ReadAndProgramming. -/
theorem witness_ReadAndProgramming :
  (physOf 0 0 sCur = some 0 ∧ (unitAt 0 0 sCur).cur = some opx ∧ opx.need = 0) ∧
  (physOf 0 0 sCur2 = some 0 ∧ (unitAt 0 0 sCur2).cur = some x1 ∧ x1.need = 0 ∧ x1.dest ≠ 3) ∧
  (pq.unit < 16384 * 128 ∧ pq.plane < 2 ∧ (rgnAt 0 sQ).fenced = false ∧ (rgnAt 0 sQ).off = false ∧ oldest pq sQ ∧
    mayGrant 0 pq sQ = true ∧ ((unitAt 5 67 sQ).plane 1).paused = none) ∧
  (pr.unit < 16384 * 128 ∧ oldest pr sPause ∧ mayGrant 0 pr sPause = true ∧ ((unitAt 5 3 sPause).plane 0).paused = some 127) ∧
  (pl.unit < 16384 * 128 ∧ oldest pl sWay ∧ inTheWay 0 pl sWay = some pr ∧ rowOpen ((unitAt 5 3 sWay).plane 0) = true) := by
  repeat' apply And.intro
  all_goals decide +kernel

/-- the same with residues that the levels give -/
def pgm0 (k : PgmKind) (row pulses : Nat) : State := updPlane 0 0 1 (fun y => { y with rows := [(row, { row7 with res := [0,0,0,0] })] }) (pgm k row pulses)
def sFen : State := updUnit 0 0 (fun x => { x with fenced := true }) (pgm .load 0 0)
abbrev yOf (s : State) : Plane := (unitAt 0 0 s).plane 1
abbrev oldOf (s : State) : Row := SMap.get Row.empty (yOf s).rows (pgmRow 0 0 s)
abbrev dataOf (fetched : Option (List Byte)) (s : State) : Option Row :=
  if (yOf s).kind = .refresh ∧ rowOpen (yOf s) = false then refreshRow (oldOf s) [] fetched
  else some (SMap.get Row.empty (if (yOf s).kind = .refresh then (yOf s).rows else (yOf s).goal) (pgmRow 0 0 s))
abbrev pulsed (s : State) : Prop := pgmPlane 0 0 s = some 1 ∧ pulseMay 0 0 (yOf s) s = true ∧ (dataOf none s).isSome = true ∧
  ((yOf s).kind = PgmKind.refresh ∨ (yOf s).goal.any (fun e => e.1 = pgmRow 0 0 s) = true)
/-- 64 bytes of a row of a tile record: levels 0, the reference columns, residues 0 -/
def rowBytes : List Byte := List.replicate 33 0 ++ [228] ++ List.replicate 30 0
def pgmY (k : PgmKind) (row pulses : Nat) : State := updPlane 0 0 1 (fun y => { y with yields := true }) (pgm0 k row pulses)

/-- Witness of the hypotheses of Obligations.RowPulses. -/
theorem witness_RowPulses :
  (pgmPlane 0 0 sFen = some 1 ∧ pulseMay 0 0 (yOf sFen) sFen = false) ∧
  (pgmPlane 0 0 (pgm .refresh 3 0) = some 1 ∧ pulseMay 0 0 (yOf (pgm .refresh 3 0)) (pgm .refresh 3 0) = true ∧ dataOf none (pgm .refresh 3 0) = none) ∧
  (pgmPlane 0 0 (pgm .refresh 3 0) = some 1 ∧ pulseMay 0 0 (yOf (pgm .refresh 3 0)) (pgm .refresh 3 0) = true ∧
    dataOf (some rowBytes) (pgm .refresh 3 0) = some (rowFrom rowBytes) ∧ (yOf (pgm .refresh 3 0)).kind = .refresh ∧
    (yOf (pgm .refresh 3 0)).yields = false) ∧
  (pulsed (pgm0 .load 0 0) ∧ pgmRow 0 0 (pgm0 .load 0 0) < 127 ∧ (yOf (pgm0 .load 0 0)).yields = false) ∧
  (pulsed (pgm0 .refresh 126 30) ∧ pgmRow 0 0 (pgm0 .refresh 126 30) < 127 ∧ (yOf (pgm0 .refresh 126 30)).yields = false) ∧
  (pulsed (pgmY .refresh 126 1) ∧ pgmRow 0 0 (pgmY .refresh 126 1) < 127 ∧ (yOf (pgmY .refresh 126 1)).yields = true ∧
    (yOf (pgmY .refresh 126 1)).kind = .refresh ∧ (pgmY .refresh 126 1).ld.claims = []) ∧
  (pulsed (pgm0 .load 0 0) ∧ (yOf (pgm0 .load 0 0)).pulses + 1 < rf (Page.unit 0 0) 2096 20 16 (pgm0 .load 0 0)) ∧
  (pulsed (pgm0 .load 127 0) ∧ pgmRow 0 0 (pgm0 .load 127 0) = 127 ∧ (yOf (pgm0 .load 127 0)).kind = .load ∧ (yOf (pgm0 .load 127 0)).yields = false) ∧
  (pulsed (pgm0 .refresh 3 30) ∧ rf (Page.unit 0 0) 2096 20 16 (pgm0 .refresh 3 30) ≤ (yOf (pgm0 .refresh 3 30)).pulses + 1 ∧
    (yOf (pgm0 .refresh 3 30)).kind = .refresh) ∧
  (pulsed (pgm0 .spare 3 30) ∧ rf (Page.unit 0 0) 2096 20 16 (pgm0 .spare 3 30) ≤ (yOf (pgm0 .spare 3 30)).pulses + 1 ∧
    (yOf (pgm0 .spare 3 30)).kind = .spare ∧ ldBusy (pgm0 .spare 3 30) = false) := by
  repeat' apply And.intro
  all_goals decide +kernel

end Units

namespace Spares

def sRes : State := updPlane 0 5 1 (fun y => { y with st := .resident }) sOn
def spare (n st mode l pl : Nat) (s : State) : State := wf (.clu 0) (0x180+4*n) 18 16 st (wf (.clu 0) (0x180+4*n) 10 8 mode (wf (.clu 0) (0x180+4*n) 13 12 pl (wf (.clu 0) (0x180+4*n) 5 0 l s)))
def sLoading : State := updRgn 0 (fun x => { x with queue := [{unit := ukey 0 66, plane := 1, kind := .spare},{unit := ukey 0 64, plane := 1, kind := .spare}] }) (spare 2 1 1 5 2 (updPlane 0 5 1 (fun y => { y with st := .resident, rows := [(9, row7)] }) sOn))
-- readout: residue of row7: sum levels 32 per group minus 32*1 = 0
def sBadRes : State := updPlane 0 5 1 (fun y => { y with rows := [(9, {row7 with res := [1,0,0,0]})] }) sLoading
def sChk2 : State := updPlane 0 66 1 (fun y => { y with st := .checking }) (spare 2 1 1 5 2 sImg)
def sTake (mode : Nat) : State := spare 2 2 mode 5 2 (updUnit 0 5 (fun x => { x with holding := 9 }) sImg)
def sBack : State := updUnit 0 66 (fun x => { x with serves := some 5 }) (updUnit 0 5 (fun x => { x with serves := none, underTest := true }) (spare 2 4 0 5 2 sImg))
def x1 := (updUnit 0 5 (fun x => {x with underTest := true}) (wf (.unit 0 5) 0x818 6 4 3 sImg))
def x2 := (updClu 0 (fun c => {c with bank := 1}) sOn)
def x3 := wrQ Requester.dzit (Page.clu 16383) 608 65535 (updRgn 63 (fun x => { x with off := false }) sOn)

abbrev rowOf (s : State) : Row := SMap.get Row.empty ((unitAt 0 5 s).plane 1).rows 9
abbrev reads (s : State) : Prop := physOf 0 (rf (Page.clu 0) (384 + 4 * 2) 5 0 s) s = some 5 ∧ spareSt 0 2 s = 1 ∧
  (cluAt 0 s).acts.contains (rf (Page.clu 0) (384 + 4 * 2) 5 0 s) = false

/-- Witness of the hypotheses of Obligations.Spares. -/
theorem witness_Spares :
  (mayWrite Requester.dzit (Page.clu 0) (384 + 4 * 3) = true ∧ pageOff (Page.clu 0) sRes = false ∧ spareSt 0 3 sRes = 0 ∧
    (∀ (m : Nat), m < 4 → m ≠ 3 → rf (Page.clu 0) (384 + 4 * m) 10 8 sRes = 0 ∨ rf (Page.clu 0) (384 + 4 * m) 5 0 sRes ≠ 5)) ∧
  (mayWrite Requester.lantern (Page.clu 0) (384 + 4 * 0) = true ∧ pageOff (Page.clu 0) sRes = false ∧ spareSt 0 0 sRes = 0 ∧
    (∀ (m : Nat), m < 4 → m ≠ 0 → rf (Page.clu 0) (384 + 4 * m) 10 8 sRes = 0 ∨ rf (Page.clu 0) (384 + 4 * m) 5 0 sRes ≠ 63)) ∧
  (mayWrite Requester.dzit (Page.clu 0) (384 + 4 * 2) = true ∧ pageOff (Page.clu 0) sLoading = false ∧ spareSt 0 2 sLoading = 1) ∧
  (mayWrite Requester.dzit (Page.clu 0) (384 + 4 * 2) = true ∧ pageOff (Page.clu 0) (spare 2 5 1 5 2 sLoading) = false ∧
    spareSt 0 2 (spare 2 5 1 5 2 sLoading) = 5) ∧
  (reads sLoading ∧ residueOk (readOut (rowOf sLoading).levels []) (rowOf sLoading).res = true) ∧
  (reads sBadRes ∧ residueOk (readOut (rowOf sBadRes).levels []) (rowOf sBadRes).res = false ∧
    fetchedRow (some Units.rowBytes) = some (rowFrom Units.rowBytes)) ∧
  (reads sLoading ∧ residueOk (readOut (rowOf sLoading).levels [(127, 3)]) (rowOf sLoading).res = false ∧ fetchedRow none = none) ∧
  (physOf 0 (rf (Page.clu 0) (384 + 4 * 2) 5 0 sChk2) sChk2 = some 5 ∧ spareSt 0 2 sChk2 = 1 ∧ cluIdle 0 sChk2 = false ∧
    ((sparePlanes 0 (rf (Page.clu 0) (384 + 4 * 2) 5 0 sChk2) (rf (Page.clu 0) (384 + 4 * 2) 13 12 sChk2) sChk2).all fun p ↦ decide (((unitAt 0 (64 + 2) sChk2).plane p).st = PlaneSt.checking)) = true) ∧
  (physOf 0 (rf (Page.clu 0) (384 + 4 * 2) 5 0 (sTake 1)) (sTake 1) = some 5 ∧ spareSt 0 2 (sTake 1) = 2 ∧
    (rf (Page.clu 0) (384 + 4 * 2) 10 8 (sTake 1) = 1 ∨ rf (Page.clu 0) (384 + 4 * 2) 10 8 (sTake 1) = 2) ∧ atBoundary 0 (sTake 1) = true ∧
    slotQuiet 0 (64 + 2) (sTake 1) = true ∧ slotQuiet 0 (rf (Page.clu 0) (384 + 4 * 2) 5 0 (sTake 1)) (sTake 1) = true) ∧
  (spareSt 0 2 sBack = 4 ∧ rf (Page.clu 0) (384 + 4 * 2) 10 8 sBack = 0 ∧ atBoundary 0 sBack = true ∧ slotQuiet 0 (64 + 2) sBack = true ∧
    slotQuiet 0 (rf (Page.clu 0) (384 + 4 * 2) 5 0 sBack) sBack = true ∧
    (unitAt 0 (rf (Page.clu 0) (384 + 4 * 2) 5 0 sBack) sBack).underTest = true ∧
    (unitAt 0 (rf (Page.clu 0) (384 + 4 * 2) 5 0 sBack) sBack).fenced = false) := by
  repeat' apply And.intro
  all_goals decide +kernel

/-- Witness of the hypotheses of Obligations.FencesAndMargins. -/
theorem witness_FencesAndMargins :
  (mayWrite Requester.dzit (Page.unit 0 5) 2052 = true ∧ pageOff (Page.unit 0 5) sImg = false) ∧
  (mayWrite Requester.lantern (Page.unit 0 5) 2052 = true ∧ pageOff (Page.unit 0 5) (wb (Page.unit 0 5) 2052 0 true sImg) = false) ∧
  (mayWrite Requester.dzit (Page.unit 0 5) 2052 = true ∧ pageOff (Page.unit 0 5) sImg = false ∧ fenceMay 0 5 sImg = true) ∧
  (mayWrite Requester.lantern (Page.unit 0 5) 2052 = true ∧ pageOff (Page.unit 0 5) (wb (Page.unit 0 5) 2052 0 true sImg) = false ∧
    fenceMay 0 5 (wb (Page.unit 0 5) 2052 0 true sImg) = true) ∧
  (mayWrite Requester.lantern (Page.unit 0 5) 2072 = true ∧ pageOff (Page.unit 0 5) x1 = false) ∧
  (mayWrite Requester.lantern (Page.unit 0 5) 2072 = true ∧ pageOff (Page.unit 0 5) (wf (Page.unit 0 5) 2072 6 4 3 sImg) = false) := by
  repeat' apply And.intro
  all_goals decide +kernel

/-- Witness of the hypotheses of Obligations.PrecisionTables. -/
theorem witness_PrecisionTables :
  (Requester.lantern ≠ Requester.mgmt ∧ pageOff (Page.clu 0) sOn = false ∧ locked (Page.clu 0) sOn = false ∧ admitted 0 sOn = false) ∧
  (Requester.dzit ≠ Requester.mgmt ∧ pageOff (Page.clu 16383) x3 = false ∧
    locked (Page.clu 16383) x3 = false ∧
    admitted 16383 x3 = false) ∧
  (Requester.lantern ≠ Requester.mgmt ∧ pageOff (Page.clu 0) x2 = false ∧ locked (Page.clu 0) x2 = false ∧
    curveUsed 0 (curveKey Requester.lantern 0 x2 / 256) x2 = false) ∧
  (Requester.lantern ≠ Requester.mgmt ∧ pageOff (Page.clu 0) x2 = false) ∧
  (Requester.dzit ≠ Requester.mgmt ∧
    pageOff (Page.clu 0) (wrQ Requester.dzit (Page.clu 0) 584 511 (wrQ Requester.dzit (Page.clu 0) 780 65535 sOn)) = false) ∧
  (Requester.lantern ≠ Requester.mgmt ∧ pageOff (Page.clu 0) x2 = false ∧ (routeSel Requester.lantern 0 x2).fst ≠ (cluAt 0 x2).bank) := by
  repeat' apply And.intro
  all_goals decide +kernel

/-- Witness of the hypotheses of Obligations.RecipesAndCounts. -/
theorem witness_RecipesAndCounts :
  Requester.lantern ≠ Requester.mgmt := by
  decide +kernel

end Spares

namespace Trims

def sCal : State := wb (pgTrm 0) 0x100 0 true sOn
def calIs (k : CalSet) (s : State) : State := updUnit 0 67 (fun x => { x with cal := [(0, k)] }) s
def x1 := (calIs { CalSet.empty with chunks := List.replicate 6 [5] } sCal)
def x2 := (calIs { CalSet.empty with chunks := List.replicate 7 [5] } sCal)
def x3 := (updRgn 0 (fun x => { x with visit := 255 }) sOn)
def x4 := { sOn with logTime := [(5, 7)], rack := 360000000006#64 }
def sDue (n : Nat) : State := updRgn 0 (fun x => { x with cmds := [{ op := 4, cluster := 0, slot := 5, plane := n, left := [], begun := false }] }) (updPlane 0 5 n (fun y => { y with st := .resident }) sOn)
def sHeld : State := inPitch (updSlot 3 (fun _ => { img3 with place := [(0, 32)], planes := 4 }) (sDue 1))

/-- Witness of the hypotheses of Obligations.Calibration. -/
theorem witness_Calibration :
  (rb (pgTrm (regionOf 0)) 256 0 x1 = true ∧ (rgnAt (regionOf 0) x1).fenced = false ∧ (rgnAt (regionOf 0) x1).off = false ∧
    calBarred 0 67 CalTask.col x1 = false ∧ calTurn 0 67 CalTask.col x1 = true ∧ calOpen 0 67 x1 = true ∧
    (SMap.get CalSet.empty (unitAt 0 67 x1).cal (taskSet CalTask.col)).chunks.length + 1 < taskChunks CalTask.col) ∧
  (rb (pgTrm (regionOf 0)) 256 0 sCal = true ∧ (rgnAt (regionOf 0) sCal).fenced = false ∧ (rgnAt (regionOf 0) sCal).off = false ∧
    calBarred 0 5 (CalTask.res 1) sCal = false ∧ calTurn 0 5 (CalTask.res 1) sCal = true ∧ calOpen 0 5 sCal = true ∧
    (SMap.get CalSet.empty (unitAt 0 5 sCal).cal (taskSet (CalTask.res 1))).chunks.length + 1 < taskChunks (CalTask.res 1)) ∧
  (rb (pgTrm (regionOf 0)) 256 0 x2 = true ∧ (rgnAt (regionOf 0) x2).fenced = false ∧ (rgnAt (regionOf 0) x2).off = false ∧
    calBarred 0 67 CalTask.col x2 = false ∧ calTurn 0 67 CalTask.col x2 = true ∧ calOpen 0 67 x2 = true ∧
    (SMap.get CalSet.empty (unitAt 0 67 x2).cal (taskSet CalTask.col)).chunks.length + 1 = taskChunks CalTask.col ∧
    (SMap.get CalSet.empty (unitAt 0 67 x2).cal (taskSet CalTask.col)).takes = []) ∧
  ((rgnAt 0 x3).fenced = false ∧ (rgnAt 0 x3).off = false ∧ rb (pgTrm 0) 260 1 x3 = false) ∧
  ((rgnAt 0 sOn).fenced = false ∧ (rgnAt 0 sOn).off = false ∧ rb (pgTrm 0) 260 1 sOn = false) ∧
  (SMap.get 0 x4.logTime (ukey 0 5) = 0 ∨ SMap.get 0 x4.logTime (ukey 0 5) + hour ≤ now x4 + 1) ∧
  (SMap.get 0 sOn.logTime (ukey 0 5) = 0 ∨ SMap.get 0 sOn.logTime (ukey 0 5) + hour ≤ now sOn + 1) := by
  repeat' apply And.intro
  all_goals decide +kernel

/-- the plane held by an image, with the plane and another one overdue -/
def sHeldO : State := updRgn 0 (fun x => { x with overdue := [(ukey 0 6, 0), (ukey 0 5, 1)] }) sHeld
/-- 400 days on, with the refresh queued, or the plane held and one spare left -/
def sOver : State := updRgn 0 (fun x => { x with queue := [{ unit := ukey 0 5, plane := 1, kind := .refresh }] })
  (wb (pgTrm 0) 0x100 3 true { sDue 1 with rack := (400 * 24 * 3600 * 100000000 : Nat) })
def sOver2 : State := wf (.clu 0) 0x180 18 16 5 (wf (.clu 0) 0x184 18 16 5 (wf (.clu 0) 0x188 18 16 5
  (wb (pgTrm 0) 0x100 3 true { sHeld with rack := (400 * 24 * 3600 * 100000000 : Nat) })))
abbrev standsIn (s : State) : Prop := (rgnAt (regionOf 0) s).fenced = false ∧ (rgnAt (regionOf 0) s).off = false ∧
  ((unitAt 0 5 s).plane 1).st = PlaneSt.resident ∧ (unitAt 0 5 s).fenced = false ∧ underOther 0 5 s = false ∧ refreshDue 0 5 1 s = true ∧
  planeHeld 0 5 1 s = true ∧ (unitAt 0 5 s).serves = some 5 ∧ idleSpares 0 s = [0, 1, 2, 3] ∧
  (∀ (i : Nat), i < 4 → i ≠ 0 → rf (Page.clu 0) (384 + 4 * i) 10 8 s = 0 ∨ rf (Page.clu 0) (384 + 4 * i) 5 0 s ≠ 5)
abbrev overdue (s : State) : Prop := (rgnAt (regionOf 0) s).fenced = false ∧ (rgnAt (regionOf 0) s).off = false ∧
  ((unitAt 0 5 s).plane 1).st = PlaneSt.resident ∧ rb (pgTrm (regionOf 0)) 0x100 3 s = true ∧ daysPassed 0 5 1 s = true ∧
  refreshWaits 0 5 1 s = true ∧ (rgnAt (regionOf 0) s).overdue.contains (ukey 0 5, 1) = false

/-- Witness of the hypotheses of Obligations.RefreshAndTrim. -/
theorem witness_RefreshAndTrim :
  ((rgnAt (regionOf 0) (sDue 1)).fenced = false ∧ (rgnAt (regionOf 0) (sDue 1)).off = false ∧
    ((unitAt 0 5 (sDue 1)).plane 1).st = PlaneSt.resident ∧ (unitAt 0 5 (sDue 1)).fenced = false ∧ underOther 0 5 (sDue 1) = false ∧
    refreshDue 0 5 1 (sDue 1) = true ∧ planeHeld 0 5 1 (sDue 1) = false) ∧
  (standsIn sHeld ∧ overdueWaits 0 5 1 sHeld = false) ∧
  (standsIn sHeldO ∧ (rgnAt (regionOf 0) sHeldO).overdue.contains (ukey 0 5, 1) = true) ∧
  overdue sOver ∧ overdue sOver2 ∧
  (Requester.dzit ≠ Requester.mgmt ∧ pageOff (pgTrm 0) (sDue 1) = false) ∧
  (Requester.lantern ≠ Requester.mgmt ∧ pageOff (pgTrm 0) sOn = false) := by
  simp only [standsIn, overdue]
  repeat' apply And.intro
  all_goals decide +kernel

end Trims

namespace Stove

def arm (e u r : Nat) (got : List (List Blk)) : Armed := { entry := e, units := u, rems := r, got := got, srcs := got.map (fun _ => anon), step := 4, wide := false }
def sRed : State := updClu 0 (fun c => { c with red := [(31, 2 + 1 * 16 + 1 * 2^18 + 7 * 2^21)], armed := [arm 31 1 0 [[blk1]]] }) sOn
def armF : Armed := arm 31 2 1 [[blk1],[blk1],[]]
def sRedF : State := updClu 0 (fun c => { c with armed := [armF] }) sRed
def sLane : State := updSlot 3 (fun x => { x with lanes := [(0, (0x1000, 3))] }) sImg
def sLaneM : State := memWrite (0x1000 + 72) [1,2,3] (updClu 0 (fun c => { c with loaded := 1, store := [(0,7)], laneWait := true }) sLane)
-- Stove
def kx : StvCtx := { r := 0, slot := 3, pt := 1, sid := 7, bslot := 2, causes := [], lines := [], corr := 0, bad := [], errs := [] }
def kx2 : StvCtx := { r := 0, slot := 3, pt := 1, sid := 7, bslot := 2, causes := [0, 3], lines := [4,5], corr := 2, bad := [9], errs := [] }
def job (code : Nat) : StvJob := { slot := 3, step := 4, desc := 2, code := code, tok := true, run := false, int8 := false, pt := 0, sid := 0, bslot := 0, cause := 0, origin := none, blks := [], nums := [], sat := false, ufl := false }
def sJob (code : Nat) : State := updRgn 0 (fun x => { x with jobs := [job code] }) sImg
def sTab : State := memWrite 0x2000 [1,2,3,4,5,6,7,8] (sJob 1)
def ws : List Word := [0x3F800000, 0xC0000000, 0x40400000, 0]
def jr : StvJob := { job 3 with run := true, int8 := true, blks := [blk1], nums := [1,2], cause := 4, origin := some 3 }
def sRun : State := wb (pgStv 0) 0x100 0 true (updRgn 0 (fun x => { x with jobs := [job 2, jr], stvHold := [(0, 55)] }) sImg)
def xw : Xfer := { slot := 3, idx := 8, step := 2, run := false }
def x1 := (updRgn 0 (fun x => { x with xfers := [xw] }) sOn)
def xr : Xfer := { slot := 3, idx := 0, step := 2, run := true }
def sXf : State := updRgn 0 (fun x => { x with xfers := [xr], sram := [(0x801, 0x20), (0x808, 64), (0x80D, 0x85), (0x80E, 3)] }) sImg
def sXf1 : State := updRgn 0 (fun x => { x with xfers := [xr], sram := [(0x801, 0x20), (0x808, 64), (0x80C, 1), (0x80D, 0x85), (0x80E, 3)] }) sImg

/-- Witness of the hypotheses of Obligations.ReductionAndLanes. -/
theorem witness_ReductionAndLanes :
  ((cluAt 0 sRed).armed = [arm 31 1 0 [[blk1]]] ∧ (arm 31 1 0 [[blk1]]).entry = 31 ∧
    takesMore (SMap.get 0 (cluAt 0 sRed).red 31) (arm 31 1 0 [[blk1]]) true = true) ∧
  ((cluAt 0 sRed).armed = [arm 31 1 0 [[blk1]]] ∧ (arm 31 1 0 [[blk1]]).entry = 31 ∧
    takesMore (SMap.get 0 (cluAt 0 sRed).red 31) (arm 31 1 0 [[blk1]]) false = true) ∧
  ((cluAt 0 sRedF).armed = [armF] ∧ entryFull (SMap.get 0 (cluAt 0 sRedF).red armF.entry) armF = true ∧ (cluAt 0 sRedF).waitArm = [] ∧
    (cluAt 0 sRedF).tokWait.find? (fun t => t.1 = armF.step) = none ∧ rdDest (SMap.get 0 (cluAt 0 sRedF).red armF.entry) = 1) ∧
  ((cluAt 0 sLane).lbase ≤ (cluAt 0 sLane).lane.w ∧ (cluAt 0 sLane).loaded < (laneStream 0 sLane).snd ∧
    (cluAt 0 sLane).loaded - max (cluAt 0 sLane).lbase (laneLow 0 (cluAt 0 sLane).lane.w sLane) < laneSlots) ∧
  ((cluAt 0 sLaneM).lbase ≤ (cluAt 0 sLaneM).lane.w ∧ (cluAt 0 sLaneM).loaded < (laneStream 0 sLaneM).snd ∧
    (cluAt 0 sLaneM).loaded - max (cluAt 0 sLaneM).lbase (laneLow 0 (cluAt 0 sLaneM).lane.w sLaneM) < laneSlots) := by
  repeat' apply And.intro
  all_goals decide +kernel

/-- Witness of the hypotheses of Obligations.StrayContributions. -/
theorem witness_StrayContributions :
  (∀ (a : Armed), List.find? (fun a ↦ decide (a.entry = 30)) (cluAt 0 sRed).armed = some a → takesMore (SMap.get 0 (cluAt 0 sRed).red 30) a false = false) ∧
  (∀ (a : Armed), List.find? (fun a ↦ decide (a.entry = 0)) (cluAt 5 (wf (Page.clu 5) 632 23 16 255 sOn)).armed = some a → takesMore (SMap.get 0 (cluAt 5 (wf (Page.clu 5) 632 23 16 255 sOn)).red 0) a true = false) := by
  repeat' apply And.intro
  all_goals decide +kernel

/-- Witness of the hypotheses of Obligations.StoveMemoryOps. -/
theorem witness_StoveMemoryOps :
  (kx.r < 64 ∧ stoveNext kx.r (sJob 0) = some (job 0) ∧ (job 0).code = 0 ∧ (job 0).slot = kx.slot ∧ (rgnAt kx.r (sJob 0)).fenced = false ∧
    (rgnAt kx.r (sJob 0)).off = false) ∧
  (kx.r < 64 ∧ stoveMay kx 1 false sTab = true) ∧
  (kx2.r < 64 ∧ stoveMay kx2 1 false sTab = true) ∧
  (kx.r < 64 ∧ stoveMay kx 2 false (sJob 2) = true) ∧
  (kx2.r < 64 ∧ stoveMay kx2 2 false (sJob 2) = true) := by
  repeat' apply And.intro
  all_goals decide +kernel

/-- Witness of the hypotheses of Obligations.StoveArithmetic. -/
theorem witness_StoveArithmetic :
  (kx.r < 64 ∧ stoveMay kx 3 true (sJob 3) = true) ∧
  (kx.r < 64 ∧ stoveMay kx 4 false (sJob 4) = true) ∧
  (kx2.r < 64 ∧ stoveMay kx2 4 false (sJob 4) = true) ∧
  (kx.r < 64 ∧ 4 ≤ ws.length ∧ stoveMay kx 8 false (sJob 8) = true) ∧
  (kx.r < 64 ∧ 2 ≤ [2143289344, 2139095040, 4286578688, 1065353216, 2139095040].length ∧ stoveMay kx 8 false (sJob 8) = true) ∧
  (kx.r < 64 ∧ stoveMay kx 9 false (sJob 9) = true) ∧
  (kx.r < 64 ∧ stoveMay kx 5 false (sJob 5) = true) ∧
  (kx.r < 64 ∧ stoveMay kx 6 false (sJob 6) = true) ∧
  (kx.r < 64 ∧ stoveMay kx 7 false (sJob 7) = true) ∧
  (kx.r < 64 ∧ stoveMay kx 10 false (sJob 10) = true) ∧
  (kx.r < 64 ∧ stoveMay kx 11 false (sJob 11) = true) := by
  repeat' apply And.intro
  all_goals decide +kernel

/-- Witness of the hypotheses of Obligations.StoveCompletes. -/
theorem witness_StoveCompletes :
  (List.find? (fun j ↦ j.run && j.int8 == true) (rgnAt 0 sRun).jobs = some jr ∧ SMap.get 0 (rgnAt 0 sRun).stvHold (pipeNo true) ≠ 0) ∧
  ((rgnAt 0 x1).xfers = [xw] ∧ xw.slot = 3 ∧ xw.idx = 8 ∧ xw.run = false) ∧
  ((rgnAt 0 sXf).xfers = [xr] ∧ xr.run = true ∧ (xferEnt 0 xr.idx sXf).tok = some 5) ∧
  ((rgnAt 0 sXf1).xfers = [xr] ∧ xr.run = true ∧ (xferEnt 0 xr.idx sXf1).tok = some 5) := by
  repeat' apply And.intro
  all_goals decide +kernel

end Stove

namespace Steps

def sDie : State := updSlot 3 (fun x => { x with dieWords := (0x8000, 2), rgns := [(0, (0x9000, 2))] }) sImg
def sDieM : State := memWrite (0x8000) (leBytes 32 (2^74 + 2^94 + 2 * 2^80 + 5*2^84 + 3)) (memWrite 0x9000 (leBytes 16 (2^54 + 3 * 2^48 + 2^88 + 7*2^80)) sDie)
def sGate : State := updSlot 3 (fun x => { x with gates := [(5, some 0, [(1,2)]), (6, none, [])] }) sImg
-- cluster steps
def word0 : Nat := 2^544 + 2^550 + 1
def sBeg : State := updClu 0 (fun c => { c with store := [(0, word0)], loaded := 1, tokens := [(0, 2), (6, 255)] }) sLaneS
where sLaneS : State := updSlot 3 (fun x => { x with lanes := [(0, (0x1000, 1))] }) sImg
def sArms : State := updClu 0 (fun c => { c with store := [(0, word0 + 2^569 * 1 + 2^564*31)], red := [(31, 0x80 + 5)], uat := [(1, 2 + 2^17+31*2^20)] }) sBeg
def sDone : State := updClu 0 (fun c => { c with busy := true, next := 4, tokWait := [(1,2,3)] }) sImg
def x1 := (updClu 5 (fun c => { c with busy := true, next := 0 }) sOn)
def tg (dcl sub : Nat) : Tag := { scl := 9, dcl := dcl, vc := 3, kind := 5, sub := sub, fmt := 0, src := 3, pitch := 2, bank := 0 }
def cb (dcl sub : Nat) (a b : Bool) : CBeat := { tag := tg dcl sub, id := 3, target := dcl, tagOk := a, dataOk := b }
def x2 := (updClu 0 (fun c => {c with tokens := [(6, 255)]}) sImg)
-- floors
def sFl : State := updSlot 3 (fun x => { x with floor := 1, lanes := [(0,(0x1000,1))], rgns := [(0,(0x2000,1))] }) sImg
def x3 := (updClu 0 (fun c => {c with next := 4, gates := [{step := 4, samples := []}, {step := 5, samples := []}]}) sFl)
def x4 := (updClu 0 (fun c => {c with next := 5}) sFl)
def x5 := { sFl with rack := 100000 }
def x6 := { (wr pgAdm 0x134 1 sFl) with rack := 100 }
-- admission
def sFull : State := (List.range 16).foldl (fun s n => updSlot n (fun _ => { img3 with st := .ended, pitch := n }) s) sOn
def adm (code : Nat) : AdmJob := { slot := 15, addr := 0x2000, code := code, sec := 1, index := 2, off := 3 }
def sAdm (code : Nat) : State := { updSlot 15 (fun x => {x with st := .checking}) sOn with admJob := some (adm code) }
-- slots
def sSt (st : SlotSt) : State := updSlot 3 (fun x => { x with st := st, lanes := [(0, (0x1000, 1))], gates := [(1, none, [])] }) sImg
def sPtr : State := updSlot 3 (fun x => { x with tagAct := true, planes := 2 }) (sSt .running)
def sPtr2 : State := updSlot 3 (fun x => {x with planes := 3, place := [(0,1)], ptr := 1}) sPtr

/-- Witness of the hypotheses of Obligations.SequencersAdvance. -/
theorem witness_SequencersAdvance :
  dieMay 3 sDie = true ∧
  dieMay 3 sDieM = true ∧
  ((slotAt 3 sGate).gates = [(5, some 0, [(1, 2)]), (6, none, [])] ∧ 0 ≤ now sGate) ∧
  regionMay 3 0 sDie = true ∧
  regionMay 3 0 sDieM = true := by
  repeat' apply And.intro
  all_goals decide +kernel

/-- a step done that a replayable failure of it holds, and a fenced cluster -/
def sHold : State := updClu 0 (fun c => { c with fails := [(3, 1, 4)] }) sDone
def sFen : State := updClu 0 (fun c => { c with fenced := true }) sImg
abbrev failsOf (c : Nat) (s : State) : List (Nat × Nat × Nat) := (cluAt c s).fails.filter (fun e => decide (e.1 ≤ (cluAt c s).next - 1))
abbrev ends (c : Nat) (s : State) : Prop := (cluAt c s).busy = true ∧ (cluAt c s).hold = false ∧ actionsOpen (cluAt c s) = false ∧
  (cluAt c s).replayTo = none
abbrev tok (b : CBeat) (s : State) : Prop := (b.tagOk = true ∨ b.dataOk = true) ∧ b.tag.dcl = 0 ∧ foreign 0 b.tag.pitch s = false

/-- Witness of the hypotheses of Obligations.ClusterSteps. -/
theorem witness_ClusterSteps :
  (slotOfClu 0 sBeg = some 3 ∧ mayBegin 3 0 sBeg = true ∧ noLane 0 sBeg = false ∧ (cluAt 0 sBeg).fenceReq = false) ∧
  (slotOfClu 0 sArms = some 3 ∧ mayBegin 3 0 sArms = true ∧ noLane 0 sArms = false ∧ (cluAt 0 sArms).fenceReq = false) ∧
  (ends 5 x1 ∧ (failsOf 5 x1).any (fun e => replayable e.2.1) = false) ∧
  (ends 0 sDone ∧ (failsOf 0 sDone).any (fun e => replayable e.2.1) = false) ∧
  (ends 0 sHold ∧ (failsOf 0 sHold).any (fun e => replayable e.2.1) = true) ∧
  (tok (cb 0 6 true true) sFen ∧ cluFenced 0 sFen = true) ∧
  (tok (cb 0 7 true true) sImg ∧ cluFenced 0 sImg = false ∧ 6 < 7) ∧
  (tok (cb 0 6 false true) sImg ∧ cluFenced 0 sImg = false ∧ 6 ≤ 6 ∧ SMap.get 0 (cluAt 0 sImg).tokens 6 ≠ 255) ∧
  (tok (cb 0 6 true false) x2 ∧ cluFenced 0 x2 = false ∧ 6 ≤ 6 ∧ SMap.get 0 (cluAt 0 x2).tokens 6 = 255) ∧
  ((cb 0 6 false false).tagOk = false ∧ (cb 0 6 false false).dataOk = false ∨ (cb 0 6 false false).tag.dcl ≠ 0) ∧
  ((cb 0 6 true true).tagOk = false ∧ (cb 0 6 true true).dataOk = false ∨ (cb 0 6 true true).tag.dcl ≠ 16383) := by
  simp only [ends, tok]
  repeat' apply And.intro
  all_goals decide +kernel

/-- messages that the die issued to cluster 0, the floor 7 first -/
def sDown : State := updClu 0 (fun c => { c with down := [[4, 7], [4, 8], [3, 5], [5, 4, 1]] }) sFl

/-- Witness of the hypotheses of Obligations.FloorsAndStalls. -/
theorem witness_FloorsAndStalls :
  ((slotAt 3 sFl).st.runs = true ∧ (slotRegions (slotAt 3 sFl)).contains 0 = true) ∧
  (slotOfClu 0 sFl = some 3 ∧ downTurn 0 [4, 7] sFl ≠ none) ∧
  (slotOfClu 0 sDown = some 3 ∧ downTurn 0 [4, 7] sDown ≠ none) ∧
  ((cluAt 0 x3).next ≤ 4 ∧ (cluAt 0 x3).gates.length < 64 ∧ downTurn 0 [3, 4] x3 ≠ none) ∧
  (3 < (cluAt 0 x3).next ∧ downTurn 0 [3, 3] x3 ≠ none) ∧
  (downTurn 0 [4, 8] sDown = none ∧ downTurn 0 [3, 5] sDown = none ∧ downTurn 0 [5, 4, 1] sDown = none) ∧
  ((cluAt 0 x4).busy = false ∧ (cluAt 0 x4).hold = false ∧ 4 < (cluAt 0 x4).next ∧ downTurn 0 [5, 4, 1] x4 ≠ none) ∧
  ((slotAt 3 x5).st = SlotSt.running ∧ (slotAt 3 x5).stalled = false ∧ rf pgAdm 308 15 0 x5 ≠ 0 ∧
    (slotAt 3 x5).pubTime + usec * rf pgAdm 308 15 0 x5 ≤ now x5) ∧
  ((slotAt 3 x6).st = SlotSt.running ∧ (slotAt 3 x6).stalled = false ∧ rf pgAdm 308 15 0 x6 ≠ 0 ∧
    (slotAt 3 x6).pubTime + usec * rf pgAdm 308 15 0 x6 ≤ now x6) := by
  repeat' apply And.intro
  all_goals decide +kernel

/-- Witness of the hypotheses of Obligations.Admission. -/
theorem witness_Admission :
  (Requester.lantern ≠ Requester.mgmt ∧ checking s0 = false ∧ (firstBelow 16 fun n ↦ decide ((slotAt n s0).st = SlotSt.empty)) = some 0) ∧
  (Requester.dzit ≠ Requester.mgmt ∧
    checking (wr pgAdm 260 4096 (wr pgAdm 264 3 (updSlot 0 (fun _ ↦ img3) (updSlot 1 (fun _ ↦ img3) (updSlot 2 (fun _ ↦ img3) sImg))))) = false ∧
    (firstBelow 16 fun n ↦ decide ((slotAt n (wr pgAdm 260 4096 (wr pgAdm 264 3 (updSlot 0 (fun _ ↦ img3) (updSlot 1 (fun _ ↦ img3) (updSlot 2 (fun _ ↦ img3) sImg)))))).st = SlotSt.empty)) = some 4) ∧
  (Requester.dzit ≠ Requester.mgmt ∧ checking sFull = false ∧ (firstBelow 16 fun n ↦ decide ((slotAt n sFull).st = SlotSt.empty)) = none) ∧
  ((sAdm 17).admJob = some (adm 17) ∧ (adm 17).code ≠ 0) ∧
  ((sAdm 0).admJob = some (adm 0) ∧ (adm 0).code = 0 ∧ (adm 0).slot < 16) := by
  repeat' apply And.intro
  all_goals decide +kernel

/-- an image whose stream enters tokens with areas outside its extents, and an ABORTING image with a step in progress -/
def sArea : State := memWrite 0x8000 (leBytes 32 (2 ^ 64)) (updSlot 3 (fun x => { x with dieWords := (0x8000, 1) }) (sSt .ready))
def sBusy : State := updClu 0 (fun c => { c with busy := true }) (sSt .aborting)

/-- Witness of the hypotheses of Obligations.SlotOperations. -/
theorem witness_SlotOperations :
  ((slotAt 3 (sSt .ready)).st = .ready ∧ areasOk 3 (sSt .ready) = true) ∧
  ((slotAt 3 sArea).st = .ready ∧ areasOk 3 sArea = false) ∧
  ((slotAt 15 s0).st ≠ .ready ∧ (slotAt 15 s0).st ≠ .running ∧ (slotAt 15 s0).st = .empty ∧ (slotAt 15 s0).st ≠ .ended ∧ Requester.dzit ≠ .mgmt) ∧
  ((slotAt 3 (sSt .running)).st = .running ∧ (slotAt 3 (sSt .draining)).st = .draining ∧ (slotAt 3 (sSt .checking)).st = .checking ∧
    (slotAt 3 (sSt .aborting)).st = .aborting ∧ (slotAt 3 (sSt .ended)).st = .ended) ∧
  ((slotAt 3 (sSt .draining)).stopping = true ∧ allStopped (slotAt 3 (sSt .draining)) (sSt .draining) = true) ∧
  ((slotAt 3 (sSt .aborting)).stopping = true ∧ allStopped (slotAt 3 (sSt .aborting)) (sSt .aborting) = true) ∧
  ((slotAt 3 (sSt .running)).stopping = false ∧ allStopped (slotAt 3 sBusy) sBusy = false) ∧
  (1 ≠ (slotAt 3 sPtr).ptr ∧ ptrRefusal (slotAt 3 sPtr) 1 sPtr = 0) ∧
  (0 ≠ (slotAt 3 sPtr2).ptr ∧ ptrRefusal (slotAt 3 sPtr2) 0 sPtr2 ≠ 0) ∧
  1 = (slotAt 3 sPtr2).ptr := by
  repeat' apply And.intro
  all_goals decide +kernel

end Steps

namespace Nets

def tg (scl dcl vc kind sub : Nat) : Tag := { scl := scl, dcl := dcl, vc := vc, kind := kind, sub := sub, fmt := 0, pitch := 2, bank := 0, src := 3 }
def pm (dcl vc kind sub : Nat) (bs : List Blk) : PMsg := { tag := tg 9 dcl vc kind sub, id := 3, step := 4, blks := bs, bad := [] }
def x1 := (updUnit 0 5 (fun x => { x with fenced := true }) sImg)
def snt (t : List Nat) : Sent := { id := 3, entry := 0, step := 4, kind := 2, targets := t, blks := [blk1], since := 0, late := false }
def cb (k sub fmt : Nat) : CBeat := { tag := { tg 9 0 3 k sub with fmt := fmt }, id := 3, target := 7, tagOk := true, dataOk := false }
def sSnt : State := updClu 0 (fun c => { c with sent := [{ snt [5] with id := 2 }, snt [7]] }) sImg
-- multicast: rectangle
def rteE (w e n s : Nat) : Nat := 2 + w * 2^16 + n * 2^23 + (e - w) * 2^30 + (s - n) * 2^37
def sMc : State := updClu 0 (fun c => { c with rte := [(4, rteE 0 1 0 1)] }) sImg
def x2 := {pm 0 1 2 3 [blk1] with tag := tg 0 0 1 2 3}
def sSt : State := { updClu 0 (fun c => { c with rte := [(4, rteE 0 1 0 1)], sent := [{ snt [7] with entry := 4 }] }) sImg with rack := 100000 }
def x3 := { snt [7] with entry := 4 }
def x4 := (updClu 0 (fun c => {c with busy := true}) sImg)
-- Guyline
def bt : Batch := { no := 2, entry := 4, plane := 0, tokens := [(1, 5, 6)] }
def x6 := (updSlot 3 (fun x => {x with batches := [bt], marked := [(1,1)]}) sImg)
-- verdicts
def sV : State := updSlot 3 (fun x => { x with floor := 2, die := { x.die with step := 9 } }) sImg
def x8 := (updSlot 3 (fun x => { x with window := 1 }) sV)
-- stacks
def ext (l : List (Nat × Nat)) (s : State) : State := updSlot 3 (fun x => { x with extents := l }) s
def sMem : State := wb (pgStk 0) 0x104 0 true (memWrite 0x1000 [9,8,7] (ext [(0x1000, 0x1000)] sImg))
def mr (a n : Nat) (sys : Bool) : MemReq := { addr := a, count := n, sys := sys, agent := sys, bad := [], rsv := false, pitch := 2, scl := 5, tag := 6 }
def er (syms pin : Nat) : SectErr := { addr := 0x1000, syms := syms, pin := pin, pc := 0 }
def erWrong : SectErr := { er 3 63 with missed := true, odecc := 1 }
def x9 := {sMem with stks := [(0, { Stk.empty with patrol := stackSectors - 1 })]}
def x10 := {sMem with stks := [(0, { Stk.empty with fencing := true })]}
def x11 := {sMem with stks := [(19, { Stk.empty with fencing := true })]}

def sDn : State := { sImg with downs := [(0, 0, 128)] }
def sLast : State := { sV with
  suspects := [{ unit := 0, perm := true, rung := 4, count := 1, start := 0, openedAt := 0 }], failRecs := [{ unit := 0, step := 4, origin := 1, cause := 0, groups := [], refs := [], trial := true }] }

/-- cluster 0 with a way to cluster 5, with a message that waited for a link now down, with a link of the unit mesh down, with no room in unit 5,
and with a token that waits for its last message -/
def sWay : State := updClu 0 (fun c => { c with routing := [(routeKey 0 1 (localOf 5), 129)] }) sImg
def sHeld : State := wb (.clu 0) 0x320 1 true (updClu 0 (fun c => { c with held := [(1, pm 5 0 2 3 [blk1])] }) sWay)
def sCut : State := wb (.clu 0) 0x320 4 true (updClu 0 (fun c => { c with umDown := [(68, 0, 0)] }) sImg)
def sFull : State := updUnit 0 5 (fun x => { x with filling := List.replicate 4 blk1 }) sImg
def sTok : State := updClu 0 (fun c => { c with sent := [snt [7]], tokWait := [(4, 4, 2)], rte := [(4, rteE 0 1 0 1)] }) sImg
abbrev way (d : Nat) (s : State) : Bool := bit (routeEnt 0 0 d s) 7 && !linkBad 0 (routeEnt 0 0 d s % 4) s
abbrev data (m : PMsg) (_ : State) : Prop := m.tag.dcl = 0 ∧ m.tag.kind ≤ 4 ∧ m.tag.vc ≠ 3
abbrev taken (m : PMsg) (s : State) : Prop := m.tag.dcl = 0 ∧ m.tag.kind ≤ 4 ∧ m.tag.vc ≠ 3 ∧ msgForeign 0 m s = false ∧ dstFenced 0 m s = false
abbrev fits (m : PMsg) (s : State) : Prop := taken m s ∧ badSub 0 m = false ∧ unitCut 0 m s = false ∧ msgWaits 0 m s = false ∧ m.bad = []
abbrev answer (b : CBeat) (m : Sent) (s : State) : Prop := (b.tagOk = true ∨ b.dataOk = true) ∧ b.tag.dcl = 0 ∧ foreign 0 b.tag.pitch s = false ∧
  (cluAt 0 s).sent.find? (fun m => m.id = b.id) = some m ∧ m.targets = [b.target]

/-- Witness of the hypotheses of Obligations.PortageMessages. -/
theorem witness_PortageMessages :
  ((pm 5 0 2 3 [blk1]).tag.dcl ≠ 0 ∧ (pm 5 0 2 3 [blk1]).tag.vc ≠ 1 ∧ way 5 sImg = false) ∧
  ((pm (clusterOf 9 3) 0 2 3 [blk1]).tag.dcl ≠ 0 ∧ (pm (clusterOf 9 3) 0 2 3 [blk1]).tag.vc ≠ 1 ∧ way (clusterOf 9 3) sImg = false) ∧
  ((pm 5 1 11 3 [blk1]).tag.dcl ≠ 0 ∧ 0xA < (pm 5 1 11 3 [blk1]).tag.kind ∧ way 5 sWay = true) ∧
  ((pm 5 0 2 3 [blk1]).tag.dcl ≠ 0 ∧ (pm 5 0 2 3 [blk1]).tag.vc ≠ 1 ∧ way 5 sHeld = false ∧
    (cluAt 0 sHeld).held.any (fun h => sameMsg (pm 5 0 2 3 [blk1]) h.2) = true) ∧
  (data (pm 0 0 0 510 [blk1]) sOn ∧ msgForeign 0 (pm 0 0 0 510 [blk1]) sOn = true) ∧
  (data (pm 0 0 2 5 [blk1]) x1 ∧ msgForeign 0 (pm 0 0 2 5 [blk1]) x1 = false ∧ dstFenced 0 (pm 0 0 2 5 [blk1]) x1 = true) ∧
  (taken (pm 0 0 4 5 [blk1]) sImg ∧ badSub 0 (pm 0 0 4 5 [blk1]) = true) ∧
  (taken (pm 0 0 0 512 [blk1]) sImg ∧ badSub 0 (pm 0 0 0 512 [blk1]) = true) ∧
  (taken (pm 0 0 2 5 [blk1]) sCut ∧ badSub 0 (pm 0 0 2 5 [blk1]) = false ∧ unitCut 0 (pm 0 0 2 5 [blk1]) sCut = true) ∧
  (taken (pm 0 0 2 5 [blk1]) sFull ∧ badSub 0 (pm 0 0 2 5 [blk1]) = false ∧ unitCut 0 (pm 0 0 2 5 [blk1]) sFull = false ∧
    msgWaits 0 (pm 0 0 2 5 [blk1]) sFull = true) ∧
  fits (pm 0 0 1 31 [blk1]) sImg ∧ fits (pm 0 0 0 511 [blk1]) sImg ∧ fits (pm 0 0 2 63 [blk1]) sImg ∧
  ((pm 5 0 2 3 [blk1]).tag.dcl ≠ 0 ∧ 0xA < (pm 0 0 11 3 [blk1]).tag.kind ∧ (pm 0 3 2 3 [blk1]).tag.vc = 3 ∧ (pm 0 3 2 3 [blk1]).bad = []) ∧
  (answer (cb 6 0 0) (snt [7]) sSnt ∧ (cluAt 0 sSnt).tokWait.find? (fun w => w.1 = (snt [7]).step) = none) ∧
  (answer (cb 7 0 3) (snt [7]) sSnt ∧ (cluAt 0 sSnt).tokWait.find? (fun w => w.1 = (snt [7]).step) = none) ∧
  (answer (cb 6 0 0) (snt [7]) sTok ∧ (cluAt 0 sTok).sent = [snt [7]] ∧ (cluAt 0 sTok).armed = [] ∧
    (cluAt 0 sTok).tokWait = [((snt [7]).step, 4, 2)]) := by
  simp only [fits, taken, data, answer]
  repeat' apply And.intro
  all_goals decide +kernel

/-- Witness of the hypotheses of Obligations.MulticastLinksFences. -/
theorem witness_MulticastLinksFences :
  ((cluAt 0 sMc).mcast = [] ∧ mcBranches 0 x2.tag.scl (SMap.get 0 (cluAt x2.tag.scl sMc).rte 4) ≠ [] ∧
    (∀ (b : Nat), b ∈ mcBranches 0 x2.tag.scl (SMap.get 0 (cluAt x2.tag.scl sMc).rte 4) → b ∈ [0, 1, 2, 3, 4] ∧ (b < 4 → linkBad 0 b sMc = false))) ∧
  ((cluAt 0 sSt).sent = [x3] ∧ x3.id = 3 ∧ fld (SMap.get 0 (cluAt 0 sSt).rte x3.entry) 1 0 = 2 ∧ x3.late = false ∧
    x3.since + usec * rf (Page.clu 0) 788 7 0 sSt ≤ now sSt) ∧
  (rb (Page.clu 16383) 800 0 sImg = false ∧ sImg.downs = []) ∧
  (rb (Page.clu 0) 800 1 sDn = false ∧ neighbour 0 1 = some 1 ∧ (0, 0, 128) ∈ sDn.downs ∧ now sDn ≤ 0 + millisecond ∧
    ((0, 128) : Nat × Nat) ≠ (min 0 1, max 0 1) ∧ (cluAt 0 sDn).fenceReq = false) ∧
  (unitLink 68 56 = true ∧ unitDown 0 68 56 sImg = false ∧ linkRow 0 68 56 sImg = 7) ∧
  (unitLink 3 11 = true ∧ unitDown 0 3 11 sCut = false ∧ linkRow 0 3 11 sCut < 8) ∧
  rb (Page.clu 0) 800 1 sHeld = true ∧
  (unitLink 3 5 = false ∧ unitLink 68 0 = true ∧ unitDown 0 68 0 sCut = true) ∧
  (Requester.dzit ≠ Requester.mgmt ∧ pageOff (Page.clu 0) x4 = false) ∧
  (Requester.dzit ≠ Requester.mgmt ∧ pageOff (Page.clu 0) sImg = false) := by
  repeat' apply And.intro
  all_goals decide +kernel

/-- Witness of the hypotheses of Obligations.Guyline. -/
theorem witness_Guyline :
  (3 ≤ 3 ∧ 13 ≤ 13) ∧
  (0 ≤ 3 ∧ 13 < 14) ∧
  3 < 4 ∧
  (63 < 64 ∧ 15 < 16) ∧
  (0 < 16384 ∧ 67 < 68) ∧
  68 ≤ 68 ∧
  68 ≤ 127 ∧
  0 < 64 ∧
  (0 < 256 ∧ 0 < 4) ∧
  (255 < 256 ∧ 3 < 4) ∧
  (slotOfPitch 2 x6 = some 3 ∧ (slotAt 3 x6).batches = [bt] ∧ (slotAt 3 x6).exiting = [] ∧ bt.entry ≤ 4 ∧
    (bt.tokens.any fun t ↦ decide (t.fst = 1)) = true) := by
  repeat' apply And.intro
  all_goals decide +kernel

/-- Witness of the hypotheses of Obligations.VerdictsAtDie. -/
theorem witness_VerdictsAtDie :
  (slotOfPitch 2 sV = some 3 ∧ (slotAt 3 sV).st ≠ SlotSt.aborting ∧ (slotAt 3 sV).st ≠ SlotSt.ended ∧ replayable 1 = true ∧
    (slotAt 3 sV).slack ≤ (slotAt 3 sV).window ∧ netOrigin 1 = false ∧ ladderSpent 0 4 0 sV = false ∧ absorbed (slotAt 3 sV) 4 0 = false) ∧
  (replayable 3 = true ∧ netOrigin 3 = true) ∧
  (slotOfPitch 2 sLast = some 3 ∧ (slotAt 3 sLast).st ≠ SlotSt.aborting ∧ (slotAt 3 sLast).st ≠ SlotSt.ended ∧ replayable 1 = true ∧
    (slotAt 3 sLast).slack ≤ (slotAt 3 sLast).window ∧ netOrigin 1 = false ∧ ladderSpent 0 4 0 sLast = true) ∧
  (slotOfPitch 2 x8 = some 3 ∧ (slotAt 3 x8).st ≠ SlotSt.aborting ∧ (slotAt 3 x8).st ≠ SlotSt.ended ∧ replayable 1 = true ∧
    (slotAt 3 x8).window < (slotAt 3 x8).slack) := by
  repeat' apply And.intro
  all_goals decide +kernel

/-- a read whose second beat fails parity, and one outside the extents with SYS of no die agent -/
def mrBad : MemReq := { mr 4096 2 false with bad := [1] }
def mrSys : MemReq := { mr 12288 1 false with sys := true }

/-- Witness of the hypotheses of Obligations.StackRequests. -/
theorem witness_StackRequests :
  (placeOf (mr 4096 2 false).addr sMem = some (0, 4096) ∧ memRefusal (mr 4096 2 false) 32 sMem = none ∧ rb (pgStk 0) 260 0 sMem = true) ∧
  (placeOf mrBad.addr sMem = some (0, 4096) ∧ mrBad.bad = [1] ∧ memRefusal mrBad 32 sMem = none ∧ rb (pgStk 0) 260 0 sMem = true) ∧
  (placeOf (mr 4096 32 true).addr sMem = some (0, 4096) ∧ memRefusal (mr 4096 32 true) 32 sMem = none ∧ rb (pgStk 0) 260 0 sMem = true) ∧
  (placeOf (mr 4096 1 false).addr sMem = some (0, 4096) ∧ memRefusal (mr 4096 1 false) 30 sMem = none ∧ rb (pgStk 0) 260 0 sMem = true) ∧
  (placeOf (mr 12288 1 false).addr sMem = some (0, 12288) ∧ memRefusal (mr 12288 1 false) 30 sMem = some memRANGE) ∧
  (placeOf (mr 12288 1 false).addr sMem = some (0, 12288) ∧ memRefusal (mr 12288 1 false) 32 sMem = some memRANGE) ∧
  (placeOf mrSys.addr sMem = some (0, 12288) ∧ mrSys.agent = false ∧ addrFenced mrSys.addr sMem = false ∧
    addrFenced (mrSys.addr + 32 * (mrSys.count - 1)) sMem = false ∧ 1 ≤ mrSys.count ∧ mrSys.count ≤ 32 ∧ mrSys.rsv = false ∧
    mrSys.addr % 32 = 0 ∧ inExtents (pitchExtents mrSys.pitch sMem) mrSys.addr mrSys.count = false) ∧
  (placeOf (mr 4097 1 false).addr sMem = some (0, 4097) ∧
    ((mr 4097 1 false).count = 0 ∨ 32 < (mr 4097 1 false).count ∨ (mr 4097 1 false).rsv = true ∨ (mr 4097 1 false).addr % 32 ≠ 0)) ∧
  (placeOf (mr 4096 33 false).addr sMem = some (0, 4096) ∧
    ((mr 4096 33 false).count = 0 ∨ 32 < (mr 4096 33 false).count ∨ (mr 4096 33 false).rsv = true ∨ (mr 4096 33 false).addr % 32 ≠ 0)) ∧
  (placeOf (mr 4096 1 false).addr (wb (pgStk 0) 256 0 true sMem) = some (0, 4096) ∧ 1 ≤ (mr 4096 1 false).count ∧
    (mr 4096 1 false).count ≤ 32 ∧ (mr 4096 1 false).rsv = false ∧ (mr 4096 1 false).addr % 32 = 0 ∧
    (mr 4096 1 false).addr % groupSize + 32 * (mr 4096 1 false).count ≤ groupSize ∧ stkFenced 0 (wb (pgStk 0) 256 0 true sMem) = true) ∧
  (placeOf (mr 4096 1 false).addr sMem = some (0, 4096) ∧ (mr 4096 1 false).count = 1 ∧ memRefusal (mr 4096 1 false) 32 sMem = none ∧
    rb (pgStk 0) 260 0 sMem = true ∧ (er 1 5).addr = (mr 4096 1 false).addr ∧ (er 1 5).syms = 1) ∧
  (placeOf (mr 4096 1 false).addr sMem = some (0, 4096) ∧ (mr 4096 1 false).count = 1 ∧ memRefusal (mr 4096 1 false) 32 sMem = none ∧
    rb (pgStk 0) 260 0 sMem = true ∧ (er 2 63).addr = (mr 4096 1 false).addr ∧ 2 ≤ (er 2 63).syms ∧ wrongSect (er 2 63) = false ∧
    32 ≤ (er 2 63).pin) ∧
  (erWrong.addr = (mr 4096 1 false).addr ∧ wrongSect erWrong = true ∧ erWrong.odecc ≠ 0) := by
  repeat' apply And.intro
  all_goals decide +kernel

/-- Witness of the hypotheses of Obligations.StackUpkeep. -/
theorem witness_StackUpkeep :
  (List.replicate 64 7).length = 64 ∧
  0 ≤ 2 ∧
  2 < 3 ∧
  rb (pgStk 0) 260 0 x9 = true ∧
  rb (pgStk 0) 260 0 sMem = true ∧
  (Requester.dzit ≠ Requester.mgmt ∧ stkFenced 0 sMem = false) ∧
  (Requester.dzit ≠ Requester.mgmt ∧ stkFenced 19 sMem = false) ∧
  ((stkAt 0 x10).fencing = true ∧ (∀ (k : Nat), k < 16 → (slotAt k x10).st ≠ SlotSt.aborting)) ∧
  ((stkAt 19 x11).fencing = true ∧ (∀ (k : Nat), k < 16 → (slotAt k x11).st ≠ SlotSt.aborting)) := by
  repeat' apply And.intro
  all_goals decide +kernel

end Nets

namespace Load

def sClaimed (st : Nat) : State := updPlane 0 0 1 (fun y => { y with st := .programming, goal := [(3, row7)] }) (updRgn 0 (fun x => { x with active := [{unit := 0, plane := 1, kind := .load}], queue := [{unit := 1, plane := 1, kind := .load}]}) (sLd st { ld0 with claims := [upKey 0 0 1, upKey 0 1 1], shard := some 0, buf := [1] }))
def x1 := (updUnit 0 0 (fun x => {x with fenced := true}) (sLd 2 ld0))
def sHeldP : State := inPitch (updSlot 3 (fun _ => { img3 with place := [(0, 1)], planes := 4 }) (sLd 2 ld0))
def sLog : State := wr pgLog 0x100 7 s0
def x2 := { sLog with logFails := [(0, 2)] }
def sCom (cs : List Nat) : State := { wr pgLog 0x100 7 (setLd 5 (updPlane 0 0 1 (fun y => {y with st := .checking}) (wf pgSfs 0x114 19 12 255 sMan))) with ld := { ld0 with claims := [upKey 0 0 1], copies := cs, digest := [1,2,3] } }

/-- a load with a row in progress -/
def sOpen : State := updPlane 0 0 1 (fun y => { y with kind := .load, pulses := 1 }) (sClaimed 4)

/-- Witness of the hypotheses of Obligations.LoaderStates, part 1. -/
theorem witness_LoaderStates_1 :
  (Requester.dzit ≠ Requester.mgmt ∧ (1 = 1 → rowPortsBad 4 15 = false) ∧ ldState (wr pgSfs 284 5 sMan) = 0) ∧
  (Requester.lantern ≠ Requester.mgmt ∧ (0 = 1 → rowPortsBad 15 15 = false) ∧ ldState (wr pgSfs 260 65536 sMan) = 0) ∧
  (Requester.dzit ≠ Requester.mgmt ∧ (2 = 1 → rowPortsBad 5 6 = false) ∧ ldState (setLd 7 sMan) ≠ 0) ∧
  (Requester.dzit ≠ Requester.mgmt ∧ 1 ≤ ldState (sClaimed 4) ∧ ldState (sClaimed 4) ≤ 4) ∧
  (1 ≤ ldState sOpen ∧ ldState sOpen ≤ 4 ∧ upKey 0 0 1 ∈ sOpen.ld.claims ∧ physOf (keyClu (upKey 0 0 1)) (keyUnit (upKey 0 0 1)) sOpen = some 0 ∧
    ((unitAt 0 0 sOpen).plane 1).st = .programming ∧ ((unitAt 0 0 sOpen).plane 1).kind = .load ∧ rowOpen ((unitAt 0 0 sOpen).plane 1) = true) ∧
  (Requester.lantern ≠ Requester.mgmt ∧ 1 ≤ ldState (setLd 1 sMan) ∧ ldState (setLd 1 sMan) ≤ 4) ∧
  (Requester.dzit ≠ Requester.mgmt ∧ ldState (sClaimed 4) < 6) ∧
  (Requester.lantern ≠ Requester.mgmt ∧ ldState (setLd 5 sMan) < 6) ∧
  (Requester.lantern ≠ Requester.mgmt ∧ (ldState (setLd 5 sMan) = 0 ∨ 5 ≤ ldState (setLd 5 sMan))) ∧
  (Requester.lantern ≠ Requester.mgmt ∧ (ldState (setLd 7 sMan) = 0 ∨ 5 ≤ ldState (setLd 7 sMan))) ∧
  (Requester.lantern ≠ Requester.mgmt ∧ 6 ≤ ldState (setLd 6 sMan)) ∧
  (Requester.lantern ≠ Requester.mgmt ∧ 6 ≤ ldState (setLd 7 sMan)) ∧
  (ldState (sLd 1 ld0) = 1 ∧ mfCheck (sLd 1 ld0).ld (sLd 1 ld0) = some { code := 1, sect := 0, index := 0, off := 0 } ∧
    (sLd 1 ld0).ld.claims = []) := by
  repeat' apply And.intro
  all_goals decide +kernel

/-- Witness of the hypotheses of Obligations.LoaderStates, part 2. -/
theorem witness_LoaderStates_2 :
  (ldState x1 = 2 ∧ List.find? (fun t ↦ targetFenced t.fst t.snd.fst x1) (targets x1.ld.plane x1) = some (0, 0, 0)) ∧
  (ldState (sLd 2 ld0) = 2 ∧
    List.find? (fun t ↦ targetFenced t.fst t.snd.fst (sLd 2 ld0)) (targets (sLd 2 ld0).ld.plane (sLd 2 ld0)) = none ∧
    claimPlane (sLd 2 ld0) = some 0) ∧
  (ldState sHeldP = 2 ∧ List.find? (fun t ↦ targetFenced t.fst t.snd.fst sHeldP) (targets sHeldP.ld.plane sHeldP) = none ∧
    claimPlane sHeldP = none) ∧
  (rb pgLog 256 2 sLog = true ∧ SMap.get 0 sLog.logFails 2 < 2) ∧
  rb pgLog 256 0 x2 = true ∧
  (rb pgLog 256 2 (sCom [1]) = true ∧ ldState (sCom [1]) = 5 ∧ (sCom [1]).ld.copies = [1]) ∧
  (rb pgLog 256 0 x2 = true ∧ 2 ≤ SMap.get 0 x2.logFails 0) ∧
  (rb pgLog 256 0 (sCom []) = true ∧ ldState (sCom []) = 5 ∧ (sCom []).ld.copies = []) := by
  repeat' apply And.intro
  all_goals decide +kernel

end Load

namespace Shards

-- stack source
def sF : State := sLd 3 { ld0 with shard := some 0, since := 5, claims := [upKey 0 0 0], due := [upKey 0 0 0] }
def srcX (s : State) : Src := (curSrc 0 s).getD { kind := 0, port := 0, ep := 0, addr := 0, obj := [] }
-- neighbour source: kind 0 port 2
def sNb : State := { sF with mem := mfst 0 2 0 }
def sNbT : State := { updLd (fun l => { l with buf := [], since := 0 }) sNb with rack := 10000000000 }
def x1 := (updLd (fun l => {l with buf := [1]}) sNbT)
def x2 := (updLd (fun l => {l with waits := 63}) sNbT)
def up (p : Nat) (s : State) : State := wf (pgRlp p) 0x104 2 0 3 s
def sSrv : State := up 2 { sMan with ld := { Loader.idle with lastMan := 0x10000, lastDigest := List.replicate 64 7, lastHeld := [0] } }
-- band
def sBand : State := updLd (fun l => { l with raw := [(0, [0x80, 0x3F])], shard := none }) sF
def zrec : List Byte := (List.replicate 15 ([87] ++ List.replicate 32 85 ++ [228, 2] ++ List.replicate 29 0)).flatten
def x3 := (updUnit 0 0 (fun x => {x with fenced := true}) sF)
def noErr : List CheckErr := []
def sCk : State := updPlane 0 0 0 (fun y => { y with st := .checking }) (sLd 4 { ld0 with claims := [upKey 0 0 0] })
def badConv : List CheckErr := [{ c := 0, slot := 0, p := 0, errs := (List.range 4).map (fun a => (3, { attempt := a, sub := 0, col := 0, bp := 7, dev := 25600 })) }]

abbrev checksOut (checks : List CheckErr) : Bool :=
  let k := upKey 0 0 0
  let errs := (checks.filter (fun x => x.c = keyClu k ∧ x.slot = 0 ∧ x.p = keyPlane k)).flatMap (·.errs)
  (checkReads (keyClu k) 0 (keyPlane k) errs (setTols (keyClu k) 0 (keyPlane k) true [0] (setLd 4 sCk))).1
/-- rows whose residues the levels do not give -/
def brec : List Byte := (List.replicate 15 ([87] ++ List.replicate 32 85 ++ [228, 5] ++ List.replicate 29 0)).flatten

/-- Witness of the hypotheses of Obligations.LoaderData, part 1. -/
theorem witness_LoaderData_1 :
  (ldBusy sF = true ∧ sF.ld.shard = some 0 ∧ curSrc 0 sF = some (srcX sF) ∧ 0 = sF.ld.turn % (shardSrcs 0 sF).length ∧ [255] ≠ [] ∧
    sF.ld.buf.length + [255].length < (shardAt sF.ld.man 0 sF).stored ∧ (srcX sF).kind = 1 ∧
    rangeFenced ((srcX sF).addr + sF.ld.buf.length) [255].length sF = false ∧ 1 ≠ sF.ld.turn % (shardSrcs 0 sF).length) ∧
  (ldBusy sNb = true ∧ sNb.ld.shard = some 0 ∧ curSrc 0 sNb = some (srcX sNb) ∧ 0 = sNb.ld.turn % (shardSrcs 0 sNb).length ∧ [255] ≠ [] ∧
    sNb.ld.buf.length + [255].length < (shardAt sNb.ld.man 0 sNb).stored ∧ (srcX sNb).kind ≠ 1) ∧
  (answers 2 0 sNb = true ∧ [128] ≠ [] ∧ [128].length ≤ 576 ∧ sNb.ld.buf.length + [128].length < (shardAt sNb.ld.man 0 sNb).stored) ∧
  (answers 2 0 sNb = true ∧ [128, 63] ≠ [] ∧ [128, 63].length ≤ 576 ∧
    (shardAt sNb.ld.man 0 sNb).stored ≤ sNb.ld.buf.length + [128, 63].length ∧
    sha3 (List.take (shardAt sNb.ld.man 0 sNb).stored (sNb.ld.buf ++ [128, 63])) = shDigest sNb.ld.man 0 sNb ∧
    (shardAt sNb.ld.man 0 sNb).enc = 0 ∧
    (List.take (shardAt sNb.ld.man 0 sNb).stored (sNb.ld.buf ++ [128, 63])).length = (shardAt sNb.ld.man 0 sNb).raw ∧ sNb.ld.mode ≠ 1) ∧
  (answers 2 0 sNb = true ∧ [128, 62, 3] ≠ [] ∧ [128, 62, 3].length ≤ 576 ∧
    (shardAt sNb.ld.man 0 sNb).stored ≤ sNb.ld.buf.length + [128, 62, 3].length ∧
    sha3 (List.take (shardAt sNb.ld.man 0 sNb).stored (sNb.ld.buf ++ [128, 62, 3])) ≠ shDigest sNb.ld.man 0 sNb) ∧
  (ldBusy sNbT = true ∧ sNbT.ld.shard = some 0 ∧ sNbT.ld.turn + 1 < rf pgSfs 296 27 24 sNbT * (shardSrcs 0 sNbT).length ∧
    sNbT.ld.buf = [] ∧ sNbT.ld.since + 10000 * rf pgSfs 296 23 12 sNbT ≤ now sNbT) ∧
  (ldBusy x1 = true ∧ x1.ld.shard = some 0 ∧ x1.ld.turn + 1 < rf pgSfs 296 27 24 x1 * (shardSrcs 0 x1).length) ∧
  (ldBusy sNbT = true ∧ sNbT.ld.shard = some 0 ∧ sNbT.ld.turn + 1 < rf pgSfs 296 27 24 sNbT * (shardSrcs 0 sNbT).length ∧
    answers 2 0 sNbT = true) ∧
  (ldBusy x2 = true ∧ x2.ld.shard = some 0 ∧ x2.ld.turn + 1 < rf pgSfs 296 27 24 x2 * (shardSrcs 0 x2).length ∧ answers 2 0 x2 = true ∧
    x2.ld.waits < 64) ∧
  (ldBusy x1 = true ∧ x1.ld.shard = some 0 ∧ x1.ld.turn + 1 < rf pgSfs 296 27 24 x1 * (shardSrcs 0 x1).length ∧ x1.ld.buf ≠ [] ∧
    x1.ld.since + 1000 * rf pgSfs 296 11 0 x1 < now x1) ∧
  (portUp 2 (up 2 sMan) = true ∧ (ldState (up 2 sMan) < 2 ∨ 5 < ldState (up 2 sMan)) ∧ (up 2 sMan).ld.lastHeld.contains 0 = false) ∧
  (portUp 2 sSrv = true ∧ (ldState sSrv < 2 ∨ 5 < ldState sSrv) ∧ List.take 16 sSrv.ld.lastDigest = slice (List.replicate 16 7) 0 16 ∧
    sSrv.ld.lastHeld.contains 0 = true ∧ shardHere sSrv.ld.lastMan sSrv.ld.lastRelay 0 sSrv = some 262144) := by
  repeat' apply And.intro
  all_goals decide +kernel

/-- Witness of the hypotheses of Obligations.LoaderData, part 2. -/
theorem witness_LoaderData_2 :
  (ldBusy sBand = true ∧ bandHeld sBand.ld.man 0 0 sBand = true ∧
    (∀ (j : Nat), j < nTile sBand.ld.man sBand → ((tileAt sBand.ld.man j sBand).ten = 0 ∧ (tileAt sBand.ld.man j sBand).tk = 0 ∧ sBand.ld.due.contains (tileKey (tileAt sBand.ld.man j sBand) sBand) = true ∧ recordMay (tileKey (tileAt sBand.ld.man j sBand) sBand) sBand = true ↔ j = 0)) ∧
    0 < nTile sBand.ld.man sBand ∧ (recordOf sBand.ld.man (tileAt sBand.ld.man 0 sBand) sBand).any (fun r => !r.isEmpty) = true ∧
    ((tenAt sBand.ld.man (tileAt sBand.ld.man 0 sBand).ten sBand).packed = false ∨ formLevels (tenAt sBand.ld.man (tileAt sBand.ld.man 0 sBand).ten sBand).form ≤ (fmtLevels (tileAt sBand.ld.man 0 sBand).clu (tenAt sBand.ld.man (tileAt sBand.ld.man 0 sBand).ten sBand).fmt sBand).length)) ∧
  (ldBusy sF = true ∧ claimed (upKey 0 0 0) sF = true) ∧
  (ldBusy sBand = true ∧ claimed (upKey 0 0 0) sBand = true) ∧
  (ldBusy sF = true ∧ claimed (upKey 0 0 0) sF = true ∧ physOf 0 0 sF = some 0 ∧ (unitAt 0 0 sF).fenced = false ∧
    ((rowsIn 0 zrec).all fun e ↦ rowHolds e.snd) = true) ∧
  (ldBusy sF = true ∧ claimed (upKey 0 0 0) sF = true ∧ physOf 0 0 sF = some 0 ∧ (unitAt 0 0 sF).fenced = false ∧
    ((rowsIn 960 zrec).all fun e ↦ rowHolds e.snd) = true) ∧
  (ldBusy x3 = true ∧ claimed (upKey 0 0 0) x3 = true ∧ physOf 0 0 x3 = some 0 ∧ (unitAt 0 0 x3).fenced = true) ∧
  (ldBusy sF = true ∧ claimed (upKey 0 0 0) sF = true ∧ physOf 0 0 sF = some 0 ∧ (unitAt 0 0 sF).fenced = false ∧
    ((rowsIn 0 brec).all fun e ↦ rowHolds e.snd) = false) ∧
  (ldBusy (sLd 5 ld0) = false ∨ claimed (upKey 0 0 0) (sLd 5 ld0) = false) := by
  repeat' apply And.intro
  all_goals decide +kernel

/-- Witness of the hypotheses of Obligations.LoaderData, part 3. -/
theorem witness_LoaderData_3 :
  (ldBusy sCk = true ∧ sCk.ld.claims = [upKey 0 0 0] ∧ keyClu (upKey 0 0 0) < 16384 ∧ keyPlane (upKey 0 0 0) < 2 ∧
    physOf (keyClu (upKey 0 0 0)) (keyUnit (upKey 0 0 0)) sCk = some 0 ∧ allChecking sCk = true ∧
    checksOut noErr = true) := by
  repeat' apply And.intro
  all_goals decide +kernel

/-- Witness of the hypotheses of Obligations.LoaderData, part 4. -/
theorem witness_LoaderData_4 :
  (ldBusy sCk = true ∧ sCk.ld.claims = [upKey 0 0 0] ∧ keyClu (upKey 0 0 0) < 16384 ∧ keyPlane (upKey 0 0 0) < 2 ∧
    physOf (keyClu (upKey 0 0 0)) (keyUnit (upKey 0 0 0)) sCk = some 0 ∧ allChecking sCk = true ∧
    checksOut badConv = false ∧
    ((unitAt (keyClu (upKey 0 0 0)) 0 sCk).plane (keyPlane (upKey 0 0 0))).retried = false) := by
  repeat' apply And.intro
  all_goals decide +kernel

end Shards

namespace Links

def lk (p st : Nat) (s : State) : State := wf (pgRlp p) 0x104 2 0 st s
def fl : Flit := { type := 1, early := false, last := true, lseq := 4095, vc := 0, dst := 0, src := 3, spid := 0x21, fmt := 0, dcl := 5, sub := 1, kind := 0, sid := 2, cause := 0, pt := 0, step := 7, slot := 1, nblk := 2, tokc := 0x83, crcOk := true, body := [1,2,3] }
def cw (u : Bool) (n ak : Nat) : Codeword := { corrected := n, uncorr := u, ackseq := 0, ackkind := ak, xoff := 0, flit := fl }
def sUp : State := lk 4 3 (lk 2 3 (updPort 2 (fun x => { x with seqIn := 4095 }) sOn))
def x2 := (updPort 2 (fun x => {x with seqIn := 1023}) sUp)
def x3 := (updPort 2 (fun x => {x with seqIn := 1024}) sUp)
def sRep (n : Nat) : State := updPort 2 (fun x => { x with replay := [(fl, 0), ({ fl with lseq := 0 }, 3)], resends := n }) { sUp with rack := 1000 }
def x5 := ({ fl with lseq := 0 }, 3)
def sWait : State := updPort 2 (fun x => { x with wait := [fl, fl] }) { lk 2 0 sUp with rack := 100000000 }
def sGood (g : Nat) : State := wf (pgRlp 2) 0x104 29 12 0xFFFF (updPort 2 (fun x => { x with good := g }) sUp)
def sEn : State := wb (pgRlp 2) 0x100 0 true (wf pgClk 0x100 2 0 0 (lk 2 0 sUp))
def sTop : State := wr pgTop 0x100 (2^31 + 3 * 2^15 + 3 * 2^10 + 1 * 32 + 1) sUp
-- torus: at (1,1) of 4x4; pitch entry 3 spid 0x21 rect whole
def sTor : State := wr pgTop (0x140 + 24) (2^31 + 2 * 256 + 2^12 + 0x21) (wr pgTop (0x144 + 24) (4 + 4 * 64) (lk 0 3 sTop))
def x6 := { fl with dst := 34 }
def x7 := { fl with dst := 33, fmt := 4 }
def x8 := { fl with dst := 33, nblk := 5 }
def x9 := { fl with dst := 33, fmt := 3, nblk := 255, last := false }
def ia : InAct := { src := 3, step := 7, spid := 0x21, dcl := 5, sub := 1, kind := 0, tokc := 0x83, pitch := 2, ids := [], got := [], last := true, sent := false, redo := false }
def x10 := (updPort 2 (fun x => { x with acts := [ia] }) sTor)
def x11 := { fl with crcOk := false }
def rf0 : Flit := { fl with body := leBytes 6 9 ++ leBytes 2 70 }
def x12 := (updPort 2 (fun x => { x with log := [{ src := 70, step := 9, pitch := 2, floor := 1, bslots := [1], failed := false, taint := false }] }) (updSlot 3 (fun _ => img3) sTor))
def x13 := { sTor with recalls := [(70, 9, 0)] }
-- link actions
def eg : Egr := { scl := 0, src := 5, step := 4, pitch := 2, blk := blk1, due := false }
def sLink (early : Bool) : State := lk 2 3 (updPort 2 (fun x => { x with blocks := [eg] }) (updSlot 3 (fun x => { x with early := early, links := [(2, 0, 4)], scheds := [(2, leBytes 2 0 ++ leBytes 1 1 ++ leBytes 13 0)] }) sImg))
def la : LinkAct := { slot := 3, desc := 0, step := 4, blks := [eg] }
def x14 := (updClu 0 (fun c => { c with next := 6, busy := true }) (updPort 2 (fun x => { x with held := [la] }) (sLink false)))
def x15 := (updPort 12 (fun x => { x with owed := [(3, 4)] }) (updPort 2 (fun x => { x with owed := [(3, 5)] }) (sImg)))

/-- Witness of the hypotheses of Obligations.RalporLinks, part 1. -/
theorem witness_RalporLinks_1 :
  linkState 2 (lk 2 1 sUp) < 2 ∧
  (2 ≤ linkState 2 sUp ∧ (cw true 0 0).uncorr = true) ∧
  (2 ≤ linkState 2 (lk 2 5 sUp) ∧ (cw false 2 0).uncorr = false ∧ (cw false 2 0).ackkind = 0 ∧ (cw false 2 0).flit.vc ≠ 3 ∧
    (portAt 2 (lk 2 5 sUp)).wait = [] ∧ (portAt 2 (lk 2 5 sUp)).seqIn < 4096 ∧
    (cw false 2 0).flit.lseq % 4096 = (portAt 2 (lk 2 5 sUp)).seqIn) ∧
  (2 ≤ linkState 2 (lk 2 3 sUp) ∧ (cw false 0 0).uncorr = false ∧ (cw false 0 0).ackkind = 0 ∧ (cw false 0 0).flit.vc ≠ 3 ∧
    (portAt 2 (lk 2 3 sUp)).wait = [] ∧ (portAt 2 (lk 2 3 sUp)).seqIn < 4096 ∧
    (cw false 0 0).flit.lseq % 4096 = (portAt 2 (lk 2 3 sUp)).seqIn) ∧
  (2 ≤ linkState 2 (lk 2 5 sUp) ∧ (cw false 2 0).uncorr = false ∧ (cw false 2 0).ackkind = 0 ∧ (cw false 2 0).flit.vc ≠ 3 ∧
    (portAt 2 (lk 2 5 sUp)).wait = [] ∧ (portAt 2 (lk 2 5 sUp)).seqIn < 4096) ∧
  (2 ≤ linkState 2 x2 ∧ (cw false 1 0).uncorr = false ∧ (cw false 1 0).ackkind = 0 ∧ (cw false 1 0).flit.vc ≠ 3 ∧ (portAt 2 x2).wait = [] ∧
    (portAt 2 x2).seqIn < 4096 ∧ ((cw false 1 0).flit.lseq + 1024) % 4096 = (portAt 2 x2).seqIn) ∧
  (2 ≤ linkState 2 x3 ∧ (cw false 1 0).uncorr = false ∧ (cw false 1 0).ackkind = 0 ∧ (cw false 1 0).flit.vc ≠ 3 ∧ (portAt 2 x3).wait = [] ∧
    (portAt 2 x3).seqIn < 4096 ∧ ((portAt 2 x3).seqIn + 3071) % 4096 = (cw false 1 0).flit.lseq % 4096) ∧
  (2 ≤ linkState 2 (sRep 7) ∧ (portAt 2 (sRep 7)).replay = [(fl, 0), x5] ∧ (fl, 0).snd + 4 * usec ≤ now (sRep 7) ∧
    (portAt 2 (sRep 7)).resends < 8) ∧
  (2 ≤ linkState 2 (sRep 8) ∧ (portAt 2 (sRep 8)).replay = [(fl, 0), x5] ∧ (fl, 0).snd + 4 * usec ≤ now (sRep 8) ∧
    8 ≤ (portAt 2 (sRep 8)).resends) ∧
  (portUp 2 sWait = false ∧ (portAt 2 sWait).wait ≠ [] ∧ (portAt 2 sWait).downAt + msec * rf (pgRlp 2) 256 23 16 sWait ≤ now sWait) ∧
  (bit (portAt 2 (sGood 255)).good 7 = true ∧ 2 ≤ linkState 2 (sGood 255) ∧ lanesOf (putBit (portAt 2 (sGood 255)).good 7 false) = 0) ∧
  (bit (portAt 2 (sGood 262143)).good 0 = true ∧ 2 ≤ linkState 2 (sGood 262143) ∧
    lanesOf (putBit (portAt 2 (sGood 262143)).good 0 false) ≠ 0 ∧ bit (rf (pgRlp 2) 260 29 12 (sGood 262143)) 0 = true) := by
  repeat' apply And.intro
  all_goals decide +kernel

/-- Witness of the hypotheses of Obligations.RalporLinks, part 2. -/
theorem witness_RalporLinks_2 :
  (portUp 2 (sGood 262143) = true ∧ (List.filter (fun i ↦ bit 262140 i) (List.range 18)).length = 16) ∧
  (portUp 2 (sGood 262143) = true ∧ (List.filter (fun i ↦ bit 255 i) (List.range 18)).length = 8) ∧
  linkState 2 (lk 2 1 (sGood 262143)) = lsTrain ∧
  linkState 4 (lk 4 1 (sGood 262143)) = lsTrain ∧
  (linkState 2 sEn = lsDown ∧ rb (pgRlp 2) 256 0 sEn = true ∧ rf pgClk 256 2 0 sEn ≠ 3 ∧ (portAt 2 sEn).tryAt ≤ now sEn) ∧
  linkState 2 (sRep 3) ≠ lsDown ∧
  (Requester.dzit ≠ Requester.mgmt ∧ rb (pgRlp 2) 256 0 (lk 2 3 sEn) = true ∧ rf pgClk 256 2 0 (lk 2 3 sEn) ≠ 3) ∧
  (Requester.dzit ≠ Requester.mgmt ∧ rb (pgRlp 2) 256 0 (wb (pgRlp 2) 256 0 false sUp) = false) ∧
  (2 ≤ linkState 2 sTop ∧ expected 2 5 77 sTop = false) ∧
  ((linkState 2 (lk 2 2 sTop) = lsIdent ∨ linkState 2 (lk 2 2 sTop) = lsMismatch) ∧ expected 2 65 77 (lk 2 2 sTop) = true) ∧
  ((linkState 2 (lk 2 5 (wf (pgRlp 2) 260 11 10 2 sTop)) = lsIdent ∨ linkState 2 (lk 2 5 (wf (pgRlp 2) 260 11 10 2 sTop)) = lsMismatch) ∧
    expected 2 65 77 (lk 2 5 (wf (pgRlp 2) 260 11 10 2 sTop)) = true) := by
  repeat' apply And.intro
  all_goals decide +kernel

/-- Witness of the hypotheses of Obligations.TorusTraffic. -/
theorem witness_TorusTraffic :
  (portUp 2 sTop = true ∧ flitPitch fl sTop = none) ∧
  (portUp 2 (lk 0 0 sTor) = true ∧ flitPitch x6 (lk 0 0 sTor) = some 3 ∧ x6.dst ≠ myCoord (lk 0 0 sTor) ∧
    (portAt (hopPort x6.dst (spaRect 3 (lk 0 0 sTor)) (lk 0 0 sTor)) (lk 0 0 sTor)).wait = [] ∧
    maySend (hopPort x6.dst (spaRect 3 (lk 0 0 sTor)) (lk 0 0 sTor)) { type := x6.type, early := x6.early, last := x6.last, lseq := x6.lseq, vc := hopVc (hopPort x6.dst (spaRect 3 (lk 0 0 sTor)) (lk 0 0 sTor)) 2 x6.vc (lk 0 0 sTor), dst := x6.dst, src := x6.src, spid := x6.spid, fmt := x6.fmt, dcl := x6.dcl, sub := x6.sub, kind := x6.kind, sid := x6.sid, cause := x6.cause, pt := x6.pt, step := x6.step, slot := x6.slot, nblk := x6.nblk, tokc := x6.tokc, crcOk := x6.crcOk, body := x6.body } (lk 0 0 sTor) = false) ∧
  (portUp 2 sTor = true ∧ flitPitch x6 sTor = some 3 ∧ x6.dst ≠ myCoord sTor ∧
    (portAt (hopPort x6.dst (spaRect 3 sTor) sTor) sTor).wait = [] ∧
    maySend (hopPort x6.dst (spaRect 3 sTor) sTor) { type := x6.type, early := x6.early, last := x6.last, lseq := x6.lseq, vc := hopVc (hopPort x6.dst (spaRect 3 sTor) sTor) 2 x6.vc sTor, dst := x6.dst, src := x6.src, spid := x6.spid, fmt := x6.fmt, dcl := x6.dcl, sub := x6.sub, kind := x6.kind, sid := x6.sid, cause := x6.cause, pt := x6.pt, step := x6.step, slot := x6.slot, nblk := x6.nblk, tokc := x6.tokc, crcOk := x6.crcOk, body := x6.body } sTor = true) ∧
  (portUp 2 sTor = true ∧ flitPitch x7 sTor = some 3 ∧ x7.dst = myCoord sTor ∧ (rb pgTop (320 + 8 * 3) 12 sTor = false ∨ 3 < x7.fmt)) ∧
  (portUp 2 sTor = true ∧ flitPitch x8 sTor = some 3 ∧ x8.dst = myCoord sTor ∧ rb pgTop (320 + 8 * 3) 12 sTor = true ∧ x8.fmt ≤ 3 ∧
    x8.kind = 0 ∧ x8.crcOk = true ∧ 1 ≤ x8.nblk ∧ (portAt 2 sTor).log = [] ∧ (portAt 2 sTor).drops = [] ∧ (portAt 2 sTor).acts = []) ∧
  (portUp 2 sTor = true ∧ flitPitch x9 sTor = some 3 ∧ x9.dst = myCoord sTor ∧ rb pgTop (320 + 8 * 3) 12 sTor = true ∧ x9.fmt ≤ 3 ∧
    x9.kind = 0 ∧ x9.crcOk = true ∧ 1 ≤ x9.nblk ∧ (portAt 2 sTor).log = [] ∧ (portAt 2 sTor).drops = [] ∧ (portAt 2 sTor).acts = []) ∧
  (portUp 2 x10 = true ∧ (portAt 2 x10).acts = [ia] ∧ ia.last = true ∧ ia.sent = false ∧ bit ia.tokc 7 = true ∧ ia.ids = []) ∧
  (portUp 2 sTor = true ∧ flitPitch x11 sTor = some 3 ∧ x11.crcOk = false) ∧
  (portUp 2 x12 = true ∧ flitPitch rf0 x12 = some 3 ∧ rf0.crcOk = true ∧ x12.recalls = []) ∧
  (portUp 2 sTor = true ∧ flitPitch rf0 sTor = some 3 ∧ rf0.crcOk = true ∧ sTor.recalls = []) ∧
  (portUp 2 x13 = true ∧ flitPitch rf0 x13 = some 3 ∧ rf0.crcOk = true ∧ (leAt rf0.body 6 2, leAt rf0.body 0 6, now x13) ∈ x13.recalls) ∧
  (readyAction 2 (sLink false) = some (3, 0, 4, [eg]) ∧ (slotAt 3 (sLink false)).early = false) ∧
  (readyAction 2 (sLink true) = some (3, 0, 4, [eg]) ∧ (slotAt 3 (sLink true)).early = true) ∧
  ((portAt 2 x14).held = [la] ∧ la.step < (cluAt (schedOf (slotAt la.slot x14) 2 la.desc).srccl x14).completed ∧
    (la.blks.all fun b ↦ !b.due) = true) ∧
  ((3, 4) ∈ (portAt 12 x15).owed ∧ (∀ (p : Nat), p < 13 → ∀ (o : Nat × Nat), o ∈ (portAt p x15).owed → o.fst = 3 → 4 ≤ o.snd) ∧
    slotPeers (slotAt 3 x15) = [] ∧ flitsWait (slotSpid (slotAt 3 x15) x15) 4 x15 = false) := by
  repeat' apply And.intro
  all_goals decide +kernel

end Links

namespace Paths

def sEth (e : Nat) : State := wr (pgEth e) 0x128 (4000 + 10 * 65536) (wr (pgEth e) 0x108 0x123456 (wr (pgEth e) 0x124 5 (wb (pgEth e) 0x100 0 true sOn)))
def sPe (e p : Nat) (f : Path → Path) : State := updPath e p f { (sEth e) with peers := SMap.set 0 (sEth e).peers (p * 8 + 4) (BitVec.ofNat 32 (2^24 + e * 65536)), rack := 1000000 }
def fl : Flit := { type := 1, early := false, last := true, lseq := 4095, vc := 0, dst := 0, src := 3, spid := 0x21, fmt := 0, dcl := 5, sub := 1, kind := 0, sid := 2, cause := 0, pt := 0, step := 7, slot := 1, nblk := 2, tokc := 0x83, crcOk := true, body := [1,2,3] }
def x3 := (sPe 7 4095 fun x => {x with opened := true, psnIn := 2^32-1})
def x4 := (sPe 7 4095 fun x => {x with opened := true, psnIn := 2^32-1, owed := 7})
def pk : SdtPkt := { psn := 2^32-1, flits := [fl], tries := 0, time := 0 }
def x8 := (sPe 7 4095 fun x => {x with opened := true, sent := [pk]})
def x9 := (sPe 7 4095 fun x => {x with psnIn := 5})
def x10 := (sPe 7 4095 fun x => {x with psnIn := 5, asked := true})
def x11 := (sPe 7 4095 fun x => {x with psnIn := 5, opened := true, sent := [pk], wait := [fl]})
def x12 := (sPe 7 4095 fun x => {x with psnIn := 5, opened := true, owed := 3})
def x13 := (sPe 7 4095 fun x => {x with psnIn := 5, opened := true, sent := [pk]})
def x14 := {pk with tries := 15}
/-- with a RATE of half a byte in a period, before and after the instant at which the next packet may leave -/
def rated (s : State) : State := { s with peers := SMap.set 0 s.peers (4095 * 8 + 5) 0x8000 }
def x11r := rated x11
def x11p := updPath 7 4095 (fun x => { x with pace := 2 ^ 50 }) x11r
def x15 := rated (sPe 7 4095 fun x => {x with psnIn := 5, opened := true, sent := [{pk with tries := 15}]})
def x16 := {pk with tries := 16}
def x17 := (sPe 7 4095 fun x => {x with psnIn := 5, opened := true, sent := [{pk with tries := 16}], wait := [fl, fl]})
-- peers
def sIx (n i : Nat) : State := wr pgTop 0x200 (BitVec.ofNat 32 (n + 4096 * i)) (sPe 7 4095 id)
def x18 := { sIx 3 3 with rtArm := some 149999 }
def x20 := { sIx 3 3 with rtArm := some 150001, ptpOfs := some (-777777) }
def x21 := { sIx 3 3 with rack := 150001 }
def x24 := { sIx 3 3 with rack := 150000 }
-- errors
def sRec (l : List Nat) : State := { sOn with rack := 100000000, records := l.map fun n => { seq := n, sentAt := 0, bytes := [1,2] } }
def x25 := { sRec [3,4] with rack := 99999999 }
def x26 := (updRgn 0 (fun x => { x with fenced := true, sram := [(3,5)], charge := 0 }) sOn)
def sStr : State := updUnit 0 5 (fun x => { x with serves := some 7 }) sOn
def st1 (p rail : Nat) : Stress := { c := 0, slot := 5, spare := 0, phase := p, rail := rail, code := 2, wanted := false }
/-- unit 5 under test in a phase at a supply, with margin code m -/
def sTest (p rail m : Nat) : State := wf (.clu 0) 0x180 18 16 4 (wf (.unit 0 5) 0x818 2 0 m (updUnit 0 5 (fun x => { x with underTest := true }) { sStr with stress := [st1 p rail] }))
abbrev tested (p rail m : Nat) : Prop := (sTest p rail m).stress = [st1 p rail] ∧ (unitAt 0 5 (sTest p rail m)).underTest = true

/-- Witness of the hypotheses of Obligations.SdtPaths, part 1. -/
theorem witness_SdtPaths_1 :
  (7 < 8 ∧ 4095 < 4096) ∧
  pathKnown 7 4095 (sEth 7) = false ∧
  (pathKnown 7 4095 (sPe 7 4095 id) = true ∧ (pathAt 7 4095 (sPe 7 4095 id)).opened = false) ∧
  (pathKnown 7 4095 x3 = true ∧ (pathAt 7 4095 x3).opened = true ∧ (pathAt 7 4095 x3).ahead = [] ∧ (pathAt 7 4095 x3).psnIn < 2 ^ 32 ∧
    1 ≤ [fl].length ∧ [fl].length ≤ 13) ∧
  (pathKnown 7 4095 x4 = true ∧ (pathAt 7 4095 x4).opened = true ∧ (pathAt 7 4095 x4).ahead = [] ∧ (pathAt 7 4095 x4).psnIn < 2 ^ 32 ∧
    1 ≤ (List.replicate 13 fl).length ∧ (List.replicate 13 fl).length ≤ 13) ∧
  (pathKnown 7 4095 x4 = true ∧ (pathAt 7 4095 x4).opened = true ∧ (pathAt 7 4095 x4).ahead = [] ∧ (pathAt 7 4095 x4).psnIn < 2 ^ 32 ∧
    1 ≤ [fl].length ∧ [fl].length ≤ 13) ∧
  (pathKnown 7 4095 x8 = true ∧ (pathAt 7 4095 x8).sent = [pk] ∧ (pathAt 7 4095 x8).wait = [] ∧ pk.psn ≠ 0 ∧
    (0 + 2 ^ 32 - pk.psn) % 2 ^ 32 < 2 ^ 31) ∧
  (pathKnown 7 4095 x8 = true ∧ (pathAt 7 4095 x8).sent = [pk] ∧ (pathAt 7 4095 x8).wait = [] ∧ pk.psn ≠ 2 ^ 31 - 2 ∧
    (2 ^ 31 - 2 + 2 ^ 32 - pk.psn) % 2 ^ 32 < 2 ^ 31) ∧
  (pathKnown 7 4095 x11 = true ∧ (pathAt 7 4095 x11).sent = [pk] ∧ (pathAt 7 4095 x11).wait = [fl] ∧ (pathAt 7 4095 x11).opened = true ∧ pk.psn ≠ 0 ∧
    (0 + 2 ^ 32 - pk.psn) % 2 ^ 32 < 2 ^ 31 ∧ peerRate 4095 x11 = 0) ∧
  (pathKnown 7 4095 x11r = true ∧ (pathAt 7 4095 x11r).sent = [pk] ∧ (pathAt 7 4095 x11r).wait = [fl] ∧ (pathAt 7 4095 x11r).opened = true ∧
    0 < peerRate 4095 x11r ∧ (pathAt 7 4095 x11r).pace / 65536 ≤ now x11r) ∧
  ((pathAt 7 4095 x11p).sent = [pk] ∧ (pathAt 7 4095 x11p).wait = [fl] ∧ now x11p < (pathAt 7 4095 x11p).pace / 65536) ∧
  (pathKnown 7 4095 x9 = true ∧ (pathAt 7 4095 x9).sent = [] ∧ (pathAt 7 4095 x9).wait = []) ∧
  (pathKnown 7 4095 x10 = true ∧ (pathAt 7 4095 x10).sent = [] ∧ (pathAt 7 4095 x10).wait = [] ∧ (pathAt 7 4095 x10).asked = true) ∧
  (pathKnown 7 4095 x10 = true ∧ (0 = 0 ∨ 3 < 0)) ∧
  (pathKnown 7 4095 x10 = true ∧ (4 = 0 ∨ 3 < 4)) := by
  repeat' apply And.intro
  all_goals decide +kernel

/-- Witness of the hypotheses of Obligations.SdtPaths, part 2. -/
theorem witness_SdtPaths_2 :
  (rb (pgEth 7) 0x100 0 (wb (pgEth 7) 0x100 0 false x11) = false ∧ rb (pgEth 7) 0x100 0 x11 = true) ∧
  ((pathAt 7 4095 x12).owed ≠ 0 ∧ (pathAt 7 4095 x12).owedAt + 2 * usec ≤ now x12) ∧
  ((pathAt 7 4095 x13).sent = [pk] ∧ pk.time + usec * rf (pgEth 7) 296 31 16 x13 ≤ now x13 ∧ pk.tries < 16 ∧ paceOpen 7 4095 x13 = false) ∧
  ((pathAt 7 4095 x15).sent = [x14] ∧ x14.time + usec * rf (pgEth 7) 296 31 16 x15 ≤ now x15 ∧ x14.tries < 16 ∧ paceOpen 7 4095 x15 = true) ∧
  ((pathAt 7 4095 x17).sent = [x16] ∧ x16.time + usec * rf (pgEth 7) 296 31 16 x17 ≤ now x17 ∧ 16 ≤ x16.tries) := by
  repeat' apply And.intro
  all_goals decide +kernel

/-- Witness of the hypotheses of Obligations.PeersAndRackTime. -/
theorem witness_PeersAndRackTime :
  (locked pgTop (sIx 4095 3) = false ∧
    (pathAt (peerPort (getF (rdQ Requester.dzit pgTop 512 (sIx 4095 3)) 11 0) (sIx 4095 3)) (getF (rdQ Requester.dzit pgTop 512 (sIx 4095 3)) 11 0) (sIx 4095 3)).opened = false) ∧
  (locked pgTop (sIx 4095 7) = false ∧
    (pathAt (peerPort (getF (rdQ Requester.lantern pgTop 512 (sIx 4095 7)) 11 0) (sIx 4095 7)) (getF (rdQ Requester.lantern pgTop 512 (sIx 4095 7)) 11 0) (sIx 4095 7)).opened = false) ∧
  (x18.ptpArm = false ∧ x18.rtArm = some 149999 ∧ 149999 + epochLen < 2 ^ 64) ∧
  (x20.ptpArm = false ∧ x20.rtArm = some 150001 ∧ 150001 + epochLen < 2 ^ 64) ∧
  (x21.ptpArm = false ∧ x21.rtArm = none ∧ now x21 + epochLen < 2 ^ 64) ∧
  (x24.ptpArm = false ∧ x24.rtArm = none ∧ now x24 + epochLen < 2 ^ 64) ∧
  rb (pgEth 3) 256 1 (sIx 3 3) = false ∧
  rb (pgEth 3) 256 1 (wb (pgEth 3) 256 1 true (sIx 3 3)) = true := by
  repeat' apply And.intro
  all_goals decide +kernel

/-- region 63 powered -/
def s63 : State := updRgn 63 (fun x => { x with off := false }) (sRec [3])

/-- Witness of the hypotheses of Obligations.ErrorsAndStress. -/
theorem witness_ErrorsAndStress :
  (inService (sRec []) = false ∧ (∀ (r : ErrRec), r ∈ (sRec []).records → r.sentAt + second ≤ now (sRec []))) ∧
  (inService (sRec [3, 4]) = false ∧ (∀ (r : ErrRec), r ∈ (sRec [3, 4]).records → r.sentAt + second ≤ now (sRec [3, 4]))) ∧
  (inService x25 = false ∧ (∀ (r : ErrRec), r ∈ x25.records → now x25 < r.sentAt + second)) ∧
  (Requester.dzit ≠ Requester.mgmt ∧ (rgnAt 0 sOn).fenced = false ∧ pageOff (pgRgn 0) sOn = false ∧ (rgnAt 0 sOn).jobs = []) ∧
  (Requester.lantern ≠ Requester.mgmt ∧ (rgnAt 63 s63).fenced = false ∧ pageOff (pgRgn 63) s63 = false ∧ (rgnAt 63 s63).jobs = []) ∧
  ((rgnAt 0 x26).fenced = true ∧ rgnHolds 0 x26 = true ∧ (rgnAt 0 x26).off = false ∧ (rgnAt 0 x26).charge = 0) ∧
  (rgnAt 0 sOn).fenced = false ∧
  ((unitAt 0 5 sStr).serves = some 7 ∧ idleSpares 0 sStr = [0, 1, 2, 3] ∧ stressMay 0 5 sStr = true ∧
    (∀ (i : Nat), i < 4 → i ≠ 0 → rf (Page.clu 0) (384 + 4 * i) 10 8 sStr = 0 ∨ rf (Page.clu 0) (384 + 4 * i) 5 0 sStr ≠ 7)) ∧
  ((st1 1 0).c < 16384 ∧ (st1 1 0).slot < 64 ∧ (st1 1 0).spare < 4 ∧ (st1 1 0).wanted = false ∧ (st1 1 0).code < 8) ∧
  (tested 1 0 2 ∧ spareSt 0 0 (sTest 1 0 2) = 4) ∧
  tested 2 0 2 ∧
  (tested 3 6 2 ∧ 6 < 8) ∧
  (tested 3 8 2 ∧ 8 ≤ 8 ∧ (st1 3 8).code ≠ 0) ∧
  (tested 4 8 1 ∧ rf (.unit 0 5) 0x818 2 0 (sTest 4 8 1) ≠ 0) ∧
  (tested 4 8 0 ∧ rf (.unit 0 5) 0x818 2 0 (sTest 4 8 0) = 0) ∧
  (tested 5 0 2 ∧ (sTest 3 4 2).suspects = [] ∧ (sTest 4 8 1).suspects = []) := by
  simp only [tested]
  repeat' apply And.intro
  all_goals decide +kernel

end Paths

namespace Pair

def lk (p st : Nat) (s : State) : State := wf (pgRlp p) 0x104 2 0 st s
def rol (r : Nat) (s : State) : State := wf pgTwn 0x100 2 1 r s
-- source at 0x40000000 (64 MiB units?), len 1, mirror elsewhere
def tw (st : Nat) (s : State) : State := wf pgTwn 0x118 13 0 1 (wr pgTwn 0x108 0x1234567 (wf pgTwn 0x104 3 0 st (wb pgTwn 0x100 0 true (rol 1 s))))
def up4 (s : State) : State := wb pgSec 0x100 22 true (wr (pgRlp 4) 0x10C 0x1234567 (lk 4 3 s))
def x1 := { up4 (tw 1 sOn) with rack := 30000, twn := { Twin.off with sentAt := 5} }
def x4 := { up4 (wf pgTwn 0x100 2 1 2 (tw 4 sOn)) with rack := 45000 }
def hm : HeartMsg := { ident := 0x1234567, role := 2, state := 1, len := 1, time := 3, ack := 0 }
def x5 := { hm with ident := 3 }
def x6 := { hm with ident := 3, state := 0xFF }
def bk (n : Nat) (s : State) : State := { s with twn := { s.twn with back := n } }
def x8 := {hm with state := 0xFF}
def sent : StreamEnt := { StreamEnt.free with state := 1, slot := 3, kvbase := 0x40000, kvcap := 64, kvpos := 64, seqin := 9, seqout := 4 }
def withEnt (n : Nat) (s : State) : State := { s with twn := { s.twn with ents := SMap.set StreamEnt.free s.twn.ents n sent, log := [(0, leBytes 40 7)], ackSent := 1 } }
def x9 := ({ withEnt 7 (tw 3 sImg) with rack := 35000*4 })
def x10 := ({ withEnt 7 (tw 2 sImg) with rack := 35000 })
def sHeld (st : Nat) : State := let s := withEnt 7 (tw 6 (updSlot 3 (fun x => { x with st := if st = 1 then .running else .ready}) sImg)); { s with twn := { s.twn with held := [3, 7], slots := SMap.set SlotItem.none s.twn.slots 3 { SlotItem.none with slot := 3, state := 3 } } }
def x11 := (wf pgTwn 0x118 13 0 0 (tw 2 (updSlot 4 (fun x => { x with feat := 8, st := .ready }) sImg)))
-- mirror
def sCom (st : Nat) : State := up4 (tw st (updSlot 3 (fun x => { x with commits := [4, 8], floor := 5, feat := 8 }) sImg))
def sMir : State := wr pgTwn 0x110 0x100 (wr pgTwn 0x114 0x200 (up4 (tw 3 sImg)))
def sMir2 : State := { sMir with twn := { sMir.twn with entsNew := [(7, sent)], ackDue := [4, 5], waits := [(9, 3, 17)] } }
def x13 := { sMir2 with twn := { sMir2.twn with psrc := 2^30 } }

/-- Witness of the hypotheses of Obligations.PairStates, part 1. -/
theorem witness_PairStates_1 :
  (twnOn (rol 1 sOn) = false ∧ twnRole (rol 1 sOn) ≠ 0) ∧
  (twnOn (rol 2 sOn) = false ∧ twnRole (rol 2 sOn) ≠ 0) ∧
  (twnOn sOn = false ∧ twnRole sOn = 0) ∧
  (locked pgTwn (rol 1 sOn) = false ∧ locked pgTwn (rol 2 sOn) = false ∧ locked pgTwn sOn = false ∧ locked pgTwn (tw 3 sOn) = false ∧ twnOn (tw 3 sOn) = true) ∧
  locked pgTwn { rol 1 sOn with locks := SMap.set 0 s0.locks pgTwn.base 7 } = true ∧
  decide (1 ≤ twnState sOn ∧ twnState sOn ≤ 4 ∧ now sOn % (100 * usec) = (if twnRole sOn = 1 then 0 else 50 * usec)) = false ∧
  ((peerOpen (tw 4 sOn)).Nodup ∧ (peerOpen (withEnt 7 (tw 3 sImg))).Nodup ∧ (peerOpen (withEnt 7 (tw 4 sImg))).Nodup) ∧
  (hm.ident = twnPartner (tw 3 sOn) ∧ hm.state ≠ 0xFF ∧ twnState (tw 3 sOn) ≠ 0 ∧ twnState (tw 3 sOn) ≠ 1 ∧ twnState (tw 3 sOn) ≠ 4) ∧
  (twnState sOn ≠ 2 ∧ twnState sOn ≠ 3 ∧ sOn.twn.held.contains 7 = false) ∧
  (1 ≤ twnState x1 ∧ twnState x1 ≤ 4 ∧ (now x1 % (100 * usec) = if twnRole x1 = 1 then 0 else 50 * usec) ∧ x1.twn.sentAt ≠ now x1) ∧
  (1 ≤ twnState x4 ∧ twnState x4 ≤ 4 ∧ (now x4 % (100 * usec) = if twnRole x4 = 1 then 0 else 50 * usec) ∧ x4.twn.sentAt ≠ now x4) ∧
  x5.ident ≠ twnPartner (tw 1 sOn) ∧
  x6.ident ≠ twnPartner (tw 3 sOn) ∧
  (hm.ident = twnPartner (up4 (tw 1 sOn)) ∧ hm.state ≠ 255 ∧ twnState (up4 (tw 1 sOn)) = 1 ∧ portUp 4 (up4 (tw 1 sOn)) = true ∧
    rd64 (pgRlp 4) 268 (up4 (tw 1 sOn)) = twnPartner (up4 (tw 1 sOn)) ∧ rb pgSec 256 22 (up4 (tw 1 sOn)) = true) ∧
  (hm.ident = twnPartner (bk 3 (tw 4 sOn)) ∧ hm.state ≠ 255 ∧ twnState (bk 3 (tw 4 sOn)) = 4 ∧ (bk 3 (tw 4 sOn)).twn.back < 16) ∧
  (x8.ident = twnPartner (tw 4 sOn) ∧ x8.state = 255 ∧ (twnState (tw 4 sOn) = 3 ∨ twnState (tw 4 sOn) = 4)) ∧
  (x8.ident = twnPartner (withEnt 7 (tw 3 sImg)) ∧ x8.state = 255 ∧
    (twnState (withEnt 7 (tw 3 sImg)) = 3 ∨ twnState (withEnt 7 (tw 3 sImg)) = 4)) ∧
  ((twnState x9 = 2 ∨ twnState x9 = 3) ∧ x9.twn.heartAt + 350 * usec ≤ now x9) := by
  repeat' apply And.intro
  all_goals decide +kernel

/-- Witness of the hypotheses of Obligations.PairStates, part 2. -/
theorem witness_PairStates_2 :
  ((twnState x10 = 2 ∨ twnState x10 = 3) ∧ x10.twn.heartAt + 350 * usec ≤ now x10) ∧
  (Requester.mgmt ≠ Requester.dzit ∧ confirmOk 2311527 (withEnt 7 (tw 4 sImg)) = true) ∧
  (Requester.lantern ≠ Requester.dzit ∧ confirmOk 2311527 (withEnt 7 (tw 4 sImg)) = true) ∧
  (Requester.mgmt ≠ Requester.dzit ∧ confirmOk 2311527 (withEnt 7 (tw 3 sImg)) = false) ∧
  (Requester.lantern ≠ Requester.dzit ∧ confirmOk 2311527 (withEnt 7 (tw 3 sImg)) = false) ∧
  ((sHeld 1).twn.held.contains 7 = true ∧ boundSlot (SMap.get StreamEnt.free (sHeld 1).twn.ents 7).slot (sHeld 1) = some 3) ∧
  ((sHeld 0).twn.held.contains 7 = true ∧ boundSlot (SMap.get StreamEnt.free (sHeld 0).twn.ents 7).slot (sHeld 0) = none) ∧
  twnState x11 = 2 := by
  repeat' apply And.intro
  all_goals decide +kernel

/-- Witness of the hypotheses of Obligations.PairMirror. -/
theorem witness_PairMirror :
  ((slotAt 3 (sCom 3)).commits = [4, 8] ∧ (twnState (sCom 3) = 3 ∨ twnState (sCom 3) = 4) ∧ 4 < (slotAt 3 (sCom 3)).floor) ∧
  ((slotAt 3 (sCom 4)).commits = [4, 8] ∧ (twnState (sCom 4) = 3 ∨ twnState (sCom 4) = 4) ∧ 4 < (slotAt 3 (sCom 4)).floor) ∧
  mirrors sMir = true ∧
  (mirrors sMir2 = true ∧ sMir2.twn.entsNew = [(7, sent)]) ∧
  (mirrors sMir2 = true ∧ sMir2.twn.psrc ≤ 0 ∧ 0 + [1, 2, 3].length ≤ sMir2.twn.psrc + twnLen sMir2 ∧
    twnMir sMir2 + twnLen sMir2 ≤ mapTop) ∧
  (mirrors x13 = true ∧ x13.twn.psrc ≤ 2 ^ 30 + 2 ^ 20 - 1 ∧ 2 ^ 30 + 2 ^ 20 - 1 + [1, 2, 3].length ≤ x13.twn.psrc + twnLen x13 ∧
    twnMir x13 + twnLen x13 ≤ mapTop) ∧
  (mirrors sMir2 = true ∧ sMir2.twn.ackDue ≠ []) ∧
  mirrors (tw 6 sMir2) = false ∧
  (sMir2.twn.ackDue = [4, 5] ∧ sMir2.twn.handed = [] ∧ rangeFenced (twnMir sMir2) (twnLen sMir2) sMir2 = false) ∧
  (sMir2.twn.waits = [(9, 3, 17)] ∧ (9, 3, 17).fst ≤ 9) := by
  repeat' apply And.intro
  all_goals decide +kernel

end Pair

namespace HostLink

def dz (st : Nat) (s : State) : State := wf pgDzt 0x104 1 0 st s
def ms : DMsg := { cls := 4, op := 2, status := 0, sid := 5, seq := 3, body := [1,2,3] }
def x1 := (dz 3 { sOn with dz := { Dzit.off with frame := 2^32-1 } })
def x2 := (dz 2 { sOn with dz := { Dzit.off with txq := [ms], cred := [(4,1)] } })
def x3 := {ms with body := List.replicate 608 7}
def x4 := (dz 3 { sOn with dz := { Dzit.off with txq := [{ms with body := List.replicate 608 7}], cred := [(4,5)] } })
def sl : DzSlot := { corrected := 0, uncorr := false, lseq := 4095, ackseq := 0, ackkind := 0, first := true, cls := 3, slots := 4, crcOk := true, cred := [0, 1, 2, 300, 4] }
def sDz (n : Nat) : State := dz 3 { sOn with dz := { Dzit.off with seqIn := 4095, host := [(3,n)], rxLeft := 4 } }
def x5 := { sl with uncorr := true }
def x6 := { sl with first := false }
def x7 := { sl with cls := 1, slots := 1, op := 0x81 }
def sDz1 : State := dz 3 { sOn with dz := { Dzit.off with seqIn := 4095, host := [(1, 1)] } }
-- host
def hd : DHdr := { sid := 5, seq := 9 }
def hb : DHdr := { hd with ok := false }
def ra (p off : Nat) : Nat := p * 4096 + off
def getS (a : Nat) (s : State) : State := (regGet .dzit a s).2.2
def getW (a : Nat) (s : State) : Word := (regGet .dzit a s).2.1
def ob : OpenBody := { slot := 3, prio := 2, fmtIn := 2, fmtOut := 0, int8exp := 127, mirror := false, rsv := false, kvbase := 0x40000, kvcap := 64, kvpos := 64 }
def sExt : State := updSlot 3 (fun x => { x with extents := [(0x40000, 0x10000)] }) sImg
def sub1 : Submit := { seq := 3, op := 1, index := 2, elems := [], deadline := 50, arrival := 2, slots := 1 }
def strm1 (st : Nat) (q : List Submit) : Strm := { Strm.free with ent := { openEntry ob with state := st, seqin := 9, seqout := 3 }, queue := q }
def sStm (st : Nat) (q : List Submit) : State := setStrm 5 (strm1 st q) { sExt with rack := 100 }
def sIn (st : Nat) : State := { sStm st [] with ioRegs := [(12, 0x100000), (13, 0x03000000)] }
def elems : List Word := List.replicate 32 0x3C00
def x9 := {hd with seq := 8}
def bt : Batch := { no := 2, entry := 4, plane := 0, tokens := [(1, 5, 6), (2, 9, 1)] }
def sRes : State := { updSlot 3 (fun x => { x with exiting := [(3, bt), (7, bt)], floor := 4 }) (sIn 1) with ioRegs := [(14, 0x100000), (15, 0x03000000)] }
def res : Res := { sid := 5, seq := 3, op := 1, status := 0, index := 7, elems := [], width := 1, exit := some (3, 2), kept := false, freed := false, exited := false }
def sSnd : State := { sStm 1 [] with results := [{ res with sid := 9 }, res], dz := { Dzit.off with cred := [(4, 1), (6, 1)] }, events := [(1, [3,4])] }
def x10 := {res with freed := true}
def x11 := { sSnd with results := [{res with freed := true}] }

/-- Witness of the hypotheses of Obligations.DzitLink. -/
theorem witness_DzitLink :
  (dzState x1 ≠ 0 ∧ inService x1 = false ∧ x1.dz.frameAt = none ∧ x1.dz.sent = [] ∧ x1.dz.cur = none ∧ x1.dz.back = [] ∧ x1.dz.txq = []) ∧
  (dzState (dz 1 (wb pgDzt 260 14 true sOn)) ≠ 0 ∧ inService (dz 1 (wb pgDzt 260 14 true sOn)) = false ∧
    (dz 1 (wb pgDzt 260 14 true sOn)).dz.frameAt = none ∧ (dz 1 (wb pgDzt 260 14 true sOn)).dz.sent = [] ∧
    (dz 1 (wb pgDzt 260 14 true sOn)).dz.cur = none ∧ (dz 1 (wb pgDzt 260 14 true sOn)).dz.back = [] ∧
    (dz 1 (wb pgDzt 260 14 true sOn)).dz.txq = []) ∧
  (dzState x2 ≠ 0 ∧ inService x2 = false ∧ x2.dz.frameAt = none ∧ x2.dz.sent = [] ∧ x2.dz.cur = none ∧ x2.dz.back = [] ∧ x2.dz.txq = [ms] ∧
    dzUp x2 = true ∧ msgSlots ms.body.length = 1 ∧ 1 ≤ SMap.get 0 x2.dz.cred ms.cls) ∧
  (dzState x4 ≠ 0 ∧ inService x4 = false ∧ x4.dz.frameAt = none ∧ x4.dz.sent = [] ∧ x4.dz.cur = none ∧ x4.dz.back = [] ∧ x4.dz.txq = [x3] ∧
    dzUp x4 = true ∧ msgSlots x3.body.length = 1 ∧ 1 ≤ SMap.get 0 x4.dz.cred x3.cls) ∧
  (dzState (dz 2 sOn) ≠ 0 ∧ bitsApart 240 syncBits syncBits ≤ 8 ∧ bitsApart 240 (syncBits + 1) syncBits ≤ 8 ∧ 8 < bitsApart 240 0 syncBits) ∧
  dzState (dz 1 (wb pgDzt 260 13 true sOn)) ≠ 0 ∧
  (dzUp (sDz 4) = true ∧ x5.uncorr = true) ∧
  (dzUp (sDz 4) = true ∧ sl.uncorr = false ∧ sl.corrected = 0 ∧ sl.ackkind = 0 ∧ sl.lseq % 4096 = (sDz 4).dz.seqIn ∧ sl.first = true ∧
    sl.crcOk = true ∧ 1 ≤ sl.cls ∧ sl.cls ≤ 7 ∧ sl.slots ≤ SMap.get 0 (sDz 4).dz.host sl.cls) ∧
  (dzUp (sDz 3) = true ∧ sl.uncorr = false ∧ sl.corrected = 0 ∧ sl.ackkind = 0 ∧ sl.lseq % 4096 = (sDz 3).dz.seqIn ∧ sl.first = true ∧
    sl.crcOk = true ∧ 1 ≤ sl.cls ∧ sl.cls ≤ 7 ∧ SMap.get 0 (sDz 3).dz.host sl.cls < sl.slots) ∧
  (dzUp (sDz 4) = true ∧ sl.uncorr = false ∧ sl.corrected = 0 ∧ sl.ackkind = 0 ∧ sl.lseq % 4096 = (sDz 4).dz.seqIn ∧ opKnown sl.cls sl.op = true) ∧
  (dzUp sDz1 = true ∧ x7.uncorr = false ∧ x7.corrected = 0 ∧ x7.ackkind = 0 ∧ x7.lseq % 4096 = sDz1.dz.seqIn ∧ x7.first = true ∧ x7.crcOk = true ∧
    1 ≤ x7.cls ∧ x7.cls ≤ 7 ∧ x7.slots ≤ SMap.get 0 sDz1.dz.host x7.cls ∧ opKnown x7.cls x7.op = false ∧ x7.cls = 1) ∧
  (dzUp (sDz 3) = true ∧ x6.uncorr = false ∧ x6.corrected = 0 ∧ x6.ackkind = 0 ∧ x6.lseq % 4096 = (sDz 3).dz.seqIn ∧ x6.first = false) ∧
  (dzState (dz 1 sOn) = 1 ∧ rf pgDzt 256 2 1 (dz 1 sOn) = 0) ∧
  (Requester.lantern ≠ Requester.mgmt ∧ rb pgDzt 256 0 (wb pgDzt 256 0 true (sDz 1)) = true) ∧
  (Requester.dzit ≠ Requester.mgmt ∧ rb pgDzt 256 0 (wb pgDzt 256 0 false (sDz 1)) = false) := by
  repeat' apply And.intro
  all_goals decide +kernel

/-- Witness of the hypotheses of Obligations.HostMessages, part 1. -/
theorem witness_HostMessages_1 :
  regReqOk 2 1 = false ∧
  regReqOk 4 65 = false ∧
  (hd.ok = true ∧ regReqOk (ra 0 260) 1 = true ∧ regGet Requester.dzit (ra 0 260) sOn = (stOK, getW (ra 0 260) sOn, getS (ra 0 260) sOn)) ∧
  (hd.ok = true ∧ regReqOk (2 ^ 39) 1 = true ∧
    regPut Requester.dzit (2 ^ 39) 3 sOn = ((regPut Requester.dzit (2 ^ 39) 3 sOn).fst, (regPut Requester.dzit (2 ^ 39) 3 sOn).snd)) ∧
  (regReqOk (ra 0 260) 1 = true ∧
    regPut Requester.dzit (ra 0 260) 3 sOn = ((regPut Requester.dzit (ra 0 260) 3 sOn).fst, (regPut Requester.dzit (ra 0 260) 3 sOn).snd)) ∧
  hb.ok = false ∧
  sExt.sresp = [] ∧
  (sExt.sresp = [] ∧ hb.ok = false) ∧
  (sExt.sresp = [] ∧ hd.ok = true ∧ (strmAt hd.sid sExt).ent.state = 0) ∧
  ((sStm 1 []).sresp = [] ∧ hd.ok = true ∧ (strmAt hd.sid (sStm 1 [])).ent.state = 1 ∧ (strmAt hd.sid (sStm 1 [])).queue = []) ∧
  ((strmAt 5 (sStm 2 [])).ent.state = 2 ∧ (strmAt 5 (sStm 2 [])).placed = [] ∧ (strmAt 5 (sStm 2 [])).old = [] ∧ (sStm 2 []).results = [] ∧ (sStm 2 []).sresp = []) ∧
  (hd.ok = true ∧ submitStatus hd (sStm 1 []) = stOK ∧ (slotAt (strmAt hd.sid (sStm 1 [])).ent.slot (sStm 1 [])).entries = 0) ∧
  (hd.ok = true ∧ submitStatus hd (sStm 1 []) = stOK ∧ (slotAt (strmAt hd.sid (sStm 1 [])).ent.slot (sStm 1 [])).entries = 0 ∧
    (strmAt hd.sid (sStm 1 [])).prevVec = false) ∧
  (hd.ok = true ∧ submitStatus hd (sIn 1) = stOK ∧ (slotAt (strmAt hd.sid (sIn 1)).ent.slot (sIn 1)).entries = 0 ∧ 32 % 32 = 0 ∧ elems.length = 32 ∧
    64 + 32 / 32 * 34 ≤ (ioArea (strmAt hd.sid (sIn 1)).ent.slot 0 (sIn 1)).snd ∧
    (elems.all fun v ↦ (edgeVal (strmAt hd.sid (sIn 1)).ent.fmtIn (strmAt hd.sid (sIn 1)).ent.int8exp (BitVec.toNat v)).isSome) = true) := by
  repeat' apply And.intro
  all_goals decide +kernel

/-- Witness of the hypotheses of Obligations.HostMessages, part 2. -/
theorem witness_HostMessages_2 :
  (if x9.ok then submitStatus x9 (sStm 1 []) else stBADMSG) ≠ stOK ∧
  (if hb.ok then submitStatus hb (sStm 1 []) else stBADMSG) ≠ stOK ∧
  submitStatus x9 sExt ≠ stOK ∧
  submitStatus x9 (sStm 2 []) ≠ stOK ∧
  ((strmAt 5 (sStm 1 [sub1])).queue = [sub1] ∧ sub1.deadline ≠ 0 ∧ sub1.deadline ≤ now (sStm 1 [sub1]) ∧ (sStm 1 [sub1]).results = [] ∧
    (slotAt (strmAt 5 (sStm 1 [sub1])).ent.slot (sStm 1 [sub1])).entries = 0) ∧
  putStatus 131072 (true && hd.ok) (List.replicate 64 7) (sStm 1 [sub1]) = stOK ∧
  putStatus 262144 (true && hd.ok) (List.replicate 64 7) (sStm 1 [sub1]) ≠ stOK ∧
  putStatus 262144 false (List.replicate 64 7) (sStm 1 [sub1]) ≠ stOK ∧
  putStatus 131072 (true && hb.ok) (List.replicate 64 7) (sStm 1 [sub1]) ≠ stOK ∧
  (List.replicate 31 7).length ≠ 32 ∧
  ((List.replicate 32 7).length = 32 ∧ hd.ok = true) ∧
  ((slotAt 3 sRes).exiting = [(3, bt), (7, bt)] ∧ 3 < (slotAt 3 sRes).floor ∧ rgnOpen 3 3 sRes = false ∧ inService sRes = false) ∧
  ((slotAt 3 (memWrite 1049348 [32] sRes)).exiting = [(3, bt), (7, bt)] ∧ 3 < (slotAt 3 (memWrite 1049348 [32] sRes)).floor ∧ rgnOpen 3 3 (memWrite 1049348 [32] sRes) = false ∧
    inService (memWrite 1049348 [32] sRes) = false) ∧
  (nextResult 5 x11 = some x10 ∧ inService x11 = false ∧ heldByCommit x10 x11 = false ∧ exitsBefore x10 x11 = false ∧ msgSlots x10.body.length ≤ creditsLeft 4 x11) ∧
  (nextResult 5 sSnd = some res ∧ inService sSnd = false ∧ heldByCommit res sSnd = false ∧ exitsBefore res sSnd = false ∧ msgSlots res.body.length ≤ creditsLeft 4 sSnd) ∧
  (sSnd.events = [(1, [3, 4])] ∧ inService sSnd = false ∧ msgSlots [3, 4].length ≤ creditsLeft 6 sSnd) := by
  repeat' apply And.intro
  all_goals decide +kernel

end HostLink

namespace Power

def sUp (n : Nat) : State := { s0 with enabled := true, rack := 250000, boot := { s0.boot with waiting := false, rows := n, rowAt := 0 } }
def rx : Region := { (rgnAt 0 sOn) with asks := [{ who := .regulator, whole := 100000, got := 40000 }], charge := 20000000 }
def sDmp (r : Nat) (x : Region) : State := wf pgAdm 0x128 15 0 1000 (wf pgPwr 0x100 7 0 200 { s0 with rgns := [(r, x)], qmax := 30000000, rack := 100, slots := [(3, { img3 with ipeak := [(r, 100)] })] })
def aq : DReq := { who := .regulator, whole := 100000, got := 40000 }
def rq : Region := { (rgnAt 0 sOn) with relq := [100000], charge := 20000000 }
def x1 := (sDmp 63 {rq with charge := 100000})
def x2 := {rq with charge := 100000}
def ivs (g c : Int) (q : Nat) (gr : Bool) : State := wf (pgIvr 5) 0x104 5 0 (tc 6 c) (wf (pgIvr 5) 0x100 5 0 (tc 6 g) (updRgn 5 (fun x => {x with charge := q, ivrGrant := gr}) sOn))
-- sense
def sS (n d : Nat) : State := wb (pgSns 0) 0x104 1 false <| updRgn 0 (fun x => {x with sns := { Sns.empty with slotNo := n, diode := d}}) sOn
def ten (b : Nat) (s : State) : State := wf (pgSns 0) 0x10C 3 0 b (wf (pgSns 0) 0x10C 23 16 2 s)
def run (s : State) : State := wb (pgSns 0) 0x104 3 true s
def stm (s : State) : State := updRgn 0 (fun x => {x with storm := [0, 0]}) s
def sr : SnsRes := { src := 3, entry := 33, nosrc := true, gain := 5, ch := 20, code := 4095, seqid := 255, time := 77 }
def sq : State := updRgn 0 (fun x => {x with sns := { Sns.empty with queue := [sr, sr] }}) sOn
-- whistle
def ws (n st acc pr tg : Nat) (timer : Bool) (s : State) : State := wb pgWhi 0x100 0 true (wf (srcPage n) (srcOff 0x100 n) 7 0 1 (wf (srcPage n) (srcOff 0x100 n) 19 16 tg (wf (srcPage n) (srcOff 0x100 n) 26 24 pr (wb (srcPage n) (srcOff 0x900 n) 29 timer (wf (srcPage n) (srcOff 0x900 n) 15 0 acc (wf (srcPage n) (srcOff 0x900 n) 31 30 st s))))))
def sC : State := wr64 pgCnt 0x208 (2^48-1) (wb (pgRcn 63) 0x100 0 true (wb pgCnt 0x100 0 true { sOn with rack := 100000, snapAt := some 99999 }))

/-- Witness of the hypotheses of Obligations.PowerAndClock. -/
theorem witness_PowerAndClock :
  (dzState (wb pgDzt 260 13 true (wf pgDzt 260 1 0 2 (wf pgClk 256 2 0 3 sOn))) = 2 ∧
    dzCompat (wb pgDzt 260 13 true (wf pgDzt 260 1 0 2 (wf pgClk 256 2 0 3 sOn))) = false ∧
    rb pgDzt 260 13 (wb pgDzt 260 13 true (wf pgDzt 260 1 0 2 (wf pgClk 256 2 0 3 sOn))) = true ∧
    rf pgClk 256 2 0 (wb pgDzt 260 13 true (wf pgDzt 260 1 0 2 (wf pgClk 256 2 0 3 sOn))) = 3) ∧
  ((sUp 0).enabled = true ∧ (sUp 0).boot.waiting = false ∧ inService (sUp 0) = false ∧ (sUp 0).boot.rows < 8 ∧
    ((sUp 0).boot.rows = 0 ∨ (sUp 0).boot.rowAt + 2500 * usec ≤ now (sUp 0))) ∧
  ((sUp 7).enabled = true ∧ (sUp 7).boot.waiting = false ∧ inService (sUp 7) = false ∧ (sUp 7).boot.rows < 8 ∧
    ((sUp 7).boot.rows = 0 ∨ (sUp 7).boot.rowAt + 2500 * usec ≤ now (sUp 7))) ∧
  ((sDmp 0 rx).rgns = [(0, rx)] ∧ rx.asks = [aq] ∧ rx.relq = [] ∧ aq.got < aq.whole ∧ (sDmp 0 rx).dampAt ≠ some (now (sDmp 0 rx)) ∧
    inService (sDmp 0 rx) = false ∧ tripped (sDmp 0 rx) = false ∧ rx.charge + (aq.whole - aq.got) ≤ rgnCeil 0 (sDmp 0 rx) ∧
    aq.whole - aq.got ≤ rf pgPwr 256 7 0 (sDmp 0 rx) * (amp / 100) ∧ rx.charge + (aq.whole - aq.got) ≤ (sDmp 0 rx).qmax) ∧
  (x1.rgns = [(63, x2)] ∧ x2.asks = [] ∧ x2.relq = [100000] ∧ 100000 ≤ x2.charge ∧ x2.charge ≤ x1.qmax ∧
    100000 ≤ rf pgPwr 256 7 0 x1 * (amp / 100) ∧ x1.dampAt ≠ some (now x1) ∧ inService x1 = false ∧ tripped x1 = false) ∧
  ((sDmp 0 rq).rgns = [(0, rq)] ∧ rq.asks = [] ∧ rq.relq = [100000] ∧ 100000 ≤ rq.charge ∧ rq.charge ≤ (sDmp 0 rq).qmax ∧
    100000 ≤ rf pgPwr 256 7 0 (sDmp 0 rq) * (amp / 100) ∧ (sDmp 0 rq).dampAt ≠ some (now (sDmp 0 rq)) ∧ inService (sDmp 0 rq) = false ∧
    tripped (sDmp 0 rq) = false) ∧
  (Requester.dzit ≠ Requester.mgmt ∧ pageOff (pgIvr 0) sOn = false ∧ locked (pgIvr 0) sOn = false) ∧
  (Requester.lantern ≠ Requester.mgmt ∧ pageOff (pgIvr 63) (updRgn 63 (fun x => { x with off := false }) sOn) = false ∧
    locked (pgIvr 63) (updRgn 63 (fun x => { x with off := false }) sOn) = false) ∧
  sx 6 (rf (pgIvr 5) 256 5 0 (ivs (-16) (-15) 1000 false)) < sx 6 (rf (pgIvr 5) 260 5 0 (ivs (-16) (-15) 1000 false)) ∧
  (sx 6 (rf (pgIvr 5) 260 5 0 (ivs 16 15 1000 false)) < sx 6 (rf (pgIvr 5) 256 5 0 (ivs 16 15 1000 false)) ∧
    (rgnAt 5 (ivs 16 15 1000 false)).ivrGrant = false ∧ 100 ≤ (rgnAt 5 (ivs 16 15 1000 false)).charge ∧
    (rgnAt 5 (ivs 16 15 1000 false)).asks = []) ∧
  (sx 6 (rf (pgIvr 5) 260 5 0 (ivs 16 15 1000 true)) < sx 6 (rf (pgIvr 5) 256 5 0 (ivs 16 15 1000 true)) ∧
    (rgnAt 5 (ivs 16 15 1000 true)).ivrGrant = true) ∧
  sx 6 (rf (pgIvr 5) 256 5 0 (ivs 1 1 1000 true)) = sx 6 (rf (pgIvr 5) 260 5 0 (ivs 1 1 1000 true)) ∧
  0 < 1 ∧
  0 < 700 ∧
  ((rgnAt 0 (wf (pgTrm 0) 300 11 0 1700 sOn)).fenced = false ∧ (rgnAt 0 (wf (pgTrm 0) 300 11 0 1700 sOn)).off = false ∧
    (rgnAt 0 (wf (pgTrm 0) 300 11 0 1700 sOn)).level < 4 ∧ (rgnAt 0 (wf (pgTrm 0) 300 11 0 1700 sOn)).hot = none ∧
    (∃ z, z < 8 ∧ 16 * rf pgPwr 280 7 0 (wf (pgTrm 0) 300 11 0 1700 sOn) < zoneTemp 0 z (wf (pgTrm 0) 300 11 0 1700 sOn))) := by
  repeat' apply And.intro
  all_goals decide +kernel

/-- a programmable sequence whose first entry converts channel 0 with the test switch closed, and the droop threshold -/
def sDac : State := wr (pgSns 0) 0x180 (BitVec.ofNat 32 (2 ^ 10 + 7 * 2 ^ 5)) (wb (pgSns 0) 0x100 0 true (wb (pgSns 0) 0x104 1 true (wb (pgSns 0) 0x104 2 true (sS 2 0))))
abbrev droops (uv b : Nat) : Prop := (uv : Int) + 1000 * rf (pgSns 0) 0x10C 15 8 (ten b sOn) <
  1000 * (rf pgPwr 0x114 9 0 (ten b sOn) : Int) + 2500 * sx 6 (rf (pgIvr 0) 0x104 5 0 (ten b sOn))

/-- Witness of the hypotheses of Obligations.SenseConverters. -/
theorem witness_SenseConverters :
  ((rgnAt 0 (sS 4 7)).fenced = false ∧ (rgnAt 0 (sS 4 7)).off = false ∧ inService (sS 4 7) = false ∧ rb (pgSns 0) 260 1 (sS 4 7) = false ∧
    (rgnAt 0 (sS 4 7)).sns.slotNo % 5 = 4 ∧ (rgnAt 0 (sS 4 7)).sns.diode < 8) ∧
  ((rgnAt 0 (wb (pgTrm 0) 256 2 true (sS 9 0))).fenced = false ∧ (rgnAt 0 (wb (pgTrm 0) 256 2 true (sS 9 0))).off = false ∧
    inService (wb (pgTrm 0) 256 2 true (sS 9 0)) = false ∧ rb (pgSns 0) 260 1 (wb (pgTrm 0) 256 2 true (sS 9 0)) = false ∧
    (rgnAt 0 (wb (pgTrm 0) 256 2 true (sS 9 0))).sns.slotNo % 5 = 4 ∧ (rgnAt 0 (wb (pgTrm 0) 256 2 true (sS 9 0))).sns.diode < 8) ∧
  ((rgnAt 0 (ten 15 sOn)).fenced = false ∧ (rgnAt 0 (ten 15 sOn)).off = false ∧ inService (ten 15 sOn) = false ∧
    tripped (ten 15 sOn) = false) ∧
  ((rgnAt 0 (ten 15 (run sOn))).fenced = false ∧ (rgnAt 0 (ten 15 (run sOn))).off = false ∧ inService (ten 15 (run sOn)) = false ∧
    tripped (ten 15 (run sOn)) = false) ∧
  ((rgnAt 0 (ten 2 sOn)).fenced = false ∧ (rgnAt 0 (ten 2 sOn)).off = false ∧ inService (ten 2 sOn) = false ∧
    tripped (ten 2 sOn) = false) ∧
  ((rgnAt 0 (ten 2 sOn)).fenced = false ∧ (rgnAt 0 (ten 2 sOn)).off = false ∧ inService (ten 2 sOn) = false ∧ tripped (ten 2 sOn) = false ∧
    (rgnAt 0 (ten 2 sOn)).storm = [] ∧ 0 < rf (pgSns 0) 268 23 16 (ten 2 sOn)) ∧
  ((rgnAt 0 (stm (ten 4 sOn))).fenced = false ∧ (rgnAt 0 (stm (ten 4 sOn))).off = false ∧ inService (stm (ten 4 sOn)) = false ∧
    tripped (stm (ten 4 sOn)) = false ∧
    rf (pgSns 0) 268 23 16 (stm (ten 4 sOn)) ≤ (List.filter (fun t ↦ decide (now (stm (ten 4 sOn)) ≤ t + 10 * usec)) (rgnAt 0 (stm (ten 4 sOn))).storm).length) ∧
  ((rgnAt 0 (stm (ten 4 (run sOn)))).fenced = false ∧ (rgnAt 0 (stm (ten 4 (run sOn)))).off = false ∧
    inService (stm (ten 4 (run sOn))) = false ∧ tripped (stm (ten 4 (run sOn))) = false ∧
    rf (pgSns 0) 268 23 16 (stm (ten 4 (run sOn))) ≤ (List.filter (fun t ↦ decide (now (stm (ten 4 (run sOn))) ≤ t + 10 * usec)) (rgnAt 0 (stm (ten 4 (run sOn)))).storm).length) ∧
  ((rgnAt 0 (stm (ten 8 sOn))).fenced = false ∧ (rgnAt 0 (stm (ten 8 sOn))).off = false ∧ inService (stm (ten 8 sOn)) = false ∧
    tripped (stm (ten 8 sOn)) = false ∧ Requester.lantern ≠ Requester.mgmt) ∧
  ((rgnAt 0 (stm (ten 8 sOn))).fenced = false ∧ (rgnAt 0 (stm (ten 8 sOn))).off = false ∧ inService (stm (ten 8 sOn)) = false ∧
    tripped (stm (ten 8 sOn)) = false ∧ Requester.lantern ≠ Requester.mgmt ∧ rb (pgSns 0) 260 1 (stm (ten 8 sOn)) = true ∧
    rb (pgSns 0) 260 2 (stm (ten 8 sOn)) = false) ∧
  ((rgnAt 0 (stm (ten 8 (wb (pgSns 0) 260 2 true (wb (pgSns 0) 260 1 true (run sOn)))))).fenced = false ∧
    (rgnAt 0 (stm (ten 8 (wb (pgSns 0) 260 2 true (wb (pgSns 0) 260 1 true (run sOn)))))).off = false ∧
    inService (stm (ten 8 (wb (pgSns 0) 260 2 true (wb (pgSns 0) 260 1 true (run sOn))))) = false ∧
    tripped (stm (ten 8 (wb (pgSns 0) 260 2 true (wb (pgSns 0) 260 1 true (run sOn))))) = false ∧ Requester.dzit ≠ Requester.mgmt ∧
    (rb (pgSns 0) 260 1 (stm (ten 8 (wb (pgSns 0) 260 2 true (wb (pgSns 0) 260 1 true (run sOn))))) = false ∨ rb (pgSns 0) 260 2 (stm (ten 8 (wb (pgSns 0) 260 2 true (wb (pgSns 0) 260 1 true (run sOn))))) = true)) ∧
  (pageOff (pgSns 0) sq = false ∧ (rgnAt 0 sq).sns.queue = [sr, sr] ∧ sr.src < 4 ∧ sr.code < 4096) ∧
  (pageOff (pgSns 0) sOn = false ∧ (rgnAt 0 sOn).sns.queue = []) ∧
  ((rgnAt 0 sDac).fenced = false ∧ (rgnAt 0 sDac).off = false ∧ inService sDac = false ∧ tripped sDac = false ∧ rb (pgSns 0) 0x100 0 sDac = true ∧
    rb (pgSns 0) 0x104 1 sDac = true ∧ rb (pgSns 0) 0x104 2 sDac = true ∧ rb (pgSns 0) 0x104 3 sDac = false ∧
    (rgnAt 0 sDac).sns.slotNo % 2 = 0 ∧ (rgnAt 0 sDac).sns.progPos < 16 ∧ (rgnAt 0 sDac).sns.dac < 1024 ∧
    getB (rd (pgSns 0) 0x180 sDac) 10 = true ∧ minSts 0 ≤ getF (rd (pgSns 0) 0x180 sDac) 7 5) ∧
  (droops 600000 15 ∧ 20 ≤ 20 ∧ ¬ droops 800000 15 ∧ 19 < 20) ∧
  16 * rf (pgSns 0) 0x10C 31 24 sOn < 16 * rf (pgSns 0) 0x10C 31 24 sOn + 1 := by
  repeat' apply And.intro
  all_goals decide +kernel

/-- Witness of the hypotheses of Obligations.WhistleAndCounters, part 1. -/
theorem witness_WhistleAndCounters_1 :
  (rb (srcPage 0) (srcOff 2304 0) 29 (ws 0 2 0 3 4 true sOn) = true ∧
    SMap.get 0 (ws 0 2 0 3 4 true sOn).whiDue 0 ≤ now (ws 0 2 0 3 4 true sOn)) ∧
  (rb (srcPage 2047) (srcOff 2304 2047) 29 (ws 2047 0 5 3 4 true sOn) = true ∧
    SMap.get 0 (ws 2047 0 5 3 4 true sOn).whiDue 2047 ≤ now (ws 2047 0 5 3 4 true sOn)) ∧
  claimable 6 (ws 2047 1 65535 5 6 true (ws 66 1 5 5 6 false sOn)) = some 66 ∧
  claimable 0 (ws 2047 1 65535 7 0 true (ws 66 1 5 6 0 false sOn)) = some 2047 ∧
  claimable 6 (ws 66 1 5 5 5 false sOn) = none ∧
  (claimable 4 (ws 66 1 5 5 4 false sOn) = some 66 ∧ inService (ws 66 1 5 5 4 false sOn) = false ∧
    (ws 66 1 5 5 4 false sOn).events.length < 4096) ∧
  (claimable 5 (ws 66 1 5 5 5 false sOn) = some 66 ∧ inService (ws 66 1 5 5 5 false sOn) = false) ∧
  (Requester.lantern ≠ Requester.mgmt ∧ srcState 66 (ws 66 2 5 5 6 false sOn) = 2 ∧ srcTarget 66 (ws 66 2 5 5 6 false sOn) = 6) ∧
  (Requester.lantern ≠ Requester.mgmt ∧ srcState 66 (wb (srcPage 66) (srcOff 2304 66) 28 true (ws 66 2 0 5 6 false sOn)) = 2 ∧
    srcTarget 66 (wb (srcPage 66) (srcOff 2304 66) 28 true (ws 66 2 0 5 6 false sOn)) = 6) ∧
  (Requester.dzit ≠ Requester.mgmt ∧ (srcState 66 (ws 66 2 5 5 6 false sOn) ≠ 2 ∨ srcTarget 66 (ws 66 2 5 5 6 false sOn) ≠ 0)) ∧
  (Requester.dzit ≠ Requester.mgmt ∧ (srcState 66 (ws 66 1 5 5 6 false sOn) ≠ 2 ∨ srcTarget 66 (ws 66 1 5 5 6 false sOn) ≠ 6)) ∧
  Requester.dzit ≠ Requester.mgmt := by
  repeat' apply And.intro
  all_goals decide +kernel

/-- Witness of the hypotheses of Obligations.WhistleAndCounters, part 2. -/
theorem witness_WhistleAndCounters_2 :
  Requester.lantern ≠ Requester.mgmt ∧
  (Requester.lantern ≠ Requester.mgmt ∧ locked pgWhi (ws 2047 2 3 5 6 true sOn) = false) ∧
  (Requester.dzit ≠ Requester.mgmt ∧ locked pgWhi (wb pgWhi 256 0 false (ws 2047 0 3 5 6 false sOn)) = false) ∧
  (Requester.lantern ≠ Requester.mgmt ∧ locked (srcPage 66) (ws 66 0 65535 5 6 false sOn) = false ∧
    srcState 66 (ws 66 0 65535 5 6 false sOn) = 0 ∧ getF (BitVec.ofNat 32 (6 * 65536 + 7 * 2 ^ 24 + 255)) 19 16 < 7 ∧
    1 ≤ getF (BitVec.ofNat 32 (6 * 65536 + 7 * 2 ^ 24 + 255)) 7 0) ∧
  (Requester.lantern ≠ Requester.mgmt ∧ locked (srcPage 66) (ws 66 2 65535 5 6 false sOn) = false ∧
    srcState 66 (ws 66 2 65535 5 6 false sOn) ≠ 0) ∧
  (now sC % epochLen = 0 ∧ rb pgCnt 256 0 sC = true ∧ rd64 pgCnt 268 sC ≠ now sC) ∧
  (sC.snapAt = some 99999 ∧ 99999 ≤ now sC ∧ rd64 pgCnt 268 sC ≠ 99999) := by
  repeat' apply And.intro
  all_goals decide +kernel

end Power

namespace Start

def lk (p st : Nat) (s : State) : State := wf (pgRlp p) 0x104 2 0 st s
def stg (n : Nat) (s : State) : State := wf pgDie 0x104 27 24 n { s with enabled := true, rack := 1000000 }
def x1 := { sOn with svcLow := true }
def x2 := (stg 1 { sOn with boot := { sOn.boot with rows := 8 } })
def rr (st : Nat) : ResRec := { st := st, join := false, plane := 0, digest := [], rect := [], members := [ukey 0 5 * 2], time := 0 }
def sRes3 : State := { stg 3 sOn with opKey := [3], resrecs := [(0, rr 3), (1, rr 2)] }
def sOdd : State := { wr pgLog 0x100 7 (stg 3 sOn) with resrecs := [(5, { ResRec.free with st := 1, members := [7], odd := [1] })] }
def sBase : State := (List.range 64).foldl (fun s r => wb (pgTrm r) 0x104 1 true s) (memWrite (19 * 2^36) [7] (memWrite (2^36) [9] (memWrite 4 [1,2] (stg 4 sOn))))
def sU : State := wb (.unit 0 5) 0x804 0 true (updUnit 0 5 (fun x => { x with fenced := true }) { sOn with enabled := true })
def sUp : State := stg 6 sOn
def att : State := wb pgSec 0x100 22 true { sUp with boot := { sUp.boot with keyHeld := true } }
def x5 := { sUp with opKey := [3] }
def x7 := { sUp with boot := { sUp.boot with revoke := 1 } }
def x8 := { sUp with records := [3,4,5].map fun n => { seq := n, sentAt := 0, bytes := [1,2] } }
def rp (t n : Nat) : RollReport := { trail := t, ident := n, x := 1, y := 2, ports := 3, patch := false, lxm1 := 0, lym1 := 0, svn := 1, nbrs := [1,2] }
def sMem : State := wr pgTop 0x100 (BitVec.ofNat 32 (2^31+3)) (wr pgDie 0x108 (1) (lk 1 3 (stg 6 sOn)))
def sTr (h : Bool) : State := let s := if h then wf pgTop 0x304 31 30 1 (wr64 pgSec 0x108 77 sMem) else sMem; { s with roll := { s.roll with trail := 77 } }
def x11 := { sTr true with rack := 2000 * msec, roll := { (sTr true).roll with reports := [rp 77 9, { rp 77 11 with x := 0 }] } }

/-- stage 5 with the Ralpor ports off and every other port up -/
def sPorts : State := wf pgDzt 260 1 0 2 (stg 5 ((List.range 8).foldl (fun s e => wb (pgEth e) 0x104 0 true s)
  ((List.range 5).foldl (fun s p => wb (pgRlp p) 256 0 false s) sOn)))

/-- Witness of the hypotheses of Obligations.StartUp. -/
theorem witness_StartUp :
  x1.enabled = false ∧
  sOn.enabled = false ∧
  (x2.enabled = true ∧ x2.boot.waiting = false ∧ x2.boot.halted = false ∧ inService x2 = false ∧ stageNow x2 = 1 ∧ x2.boot.rows = 8) ∧
  ((wr pgLog 256 1 (stg 2 sOn)).enabled = true ∧ (wr pgLog 256 1 (stg 2 sOn)).boot.waiting = false ∧
    (wr pgLog 256 1 (stg 2 sOn)).boot.halted = false ∧ inService (wr pgLog 256 1 (stg 2 sOn)) = false ∧
    stageNow (wr pgLog 256 1 (stg 2 sOn)) = 2 ∧ logCopies (wr pgLog 256 1 (stg 2 sOn)) < 2) ∧
  (sRes3.enabled = true ∧ sRes3.boot.waiting = false ∧ sRes3.boot.halted = false ∧ inService sRes3 = false ∧ stageNow sRes3 = 3) ∧
  (stageNow sOdd = 3 ∧ sOdd.resrecs = [(5, { ResRec.free with st := 1, members := [7], odd := [1] })] ∧ logCopies sOdd = 3) ∧
  (stageNow (wb pgLog 0x100 2 false sOdd) = 3 ∧ rb pgLog 0x100 1 (wb pgLog 0x100 2 false sOdd) = true ∧ logCopies (wb pgLog 0x100 2 false sOdd) = 2) ∧
  (sBase.enabled = true ∧ sBase.boot.waiting = false ∧ sBase.boot.halted = false ∧ inService sBase = false ∧ stageNow sBase = 4 ∧
    (∀ (r : Nat), r < 64 → baseDone r sBase = true)) ∧
  (sPorts.enabled = true ∧
    sPorts.boot.waiting = false ∧
    sPorts.boot.halted = false ∧
    inService sPorts = false ∧
    stageNow sPorts = 5 ∧
    portsUp sPorts = true) ∧
  (sU.svcLow = false ∧ sU.enabled = true ∧ ukey 0 5 ∈ unitKeys sU) ∧
  sOn.svcLow = false := by
  repeat' apply And.intro
  all_goals decide +kernel

/-- Witness of the hypotheses of Obligations.Management. -/
theorem witness_Management :
  stageNow sOn < 3 ∧
  (inService sUp = false ∧ 3 ≤ stageNow sUp ∧ (List.replicate 32 3).length = 32) ∧
  (inService att = false ∧ 3 ≤ stageNow att ∧ (List.replicate 32 3).length = 32) ∧
  (inService x5 = false ∧ 3 ≤ stageNow x5 ∧ (List.replicate keyLen 3).length = keyLen) ∧
  (inService sUp = false ∧ 3 ≤ stageNow sUp ∧ (List.replicate keyLen 3).length = keyLen) ∧
  (inService x5 = false ∧ 3 ≤ stageNow x5 ∧ (List.replicate keyLen 3).length = keyLen ∧ (List.replicate sigLen 0).length = sigLen ∧ x5.opKey ≠ []) ∧
  (inService x5 = false ∧ 3 ≤ stageNow x5) ∧
  (inService x7 = false ∧ 3 ≤ stageNow x7) ∧
  (inService x8 = false ∧ 3 ≤ stageNow x8) ∧
  (inService (wb pgTop 256 31 true sUp) = false ∧ 3 ≤ stageNow (wb pgTop 256 31 true sUp) ∧ rb pgTop 256 31 (wb pgTop 256 31 true sUp) = true) ∧
  (inService sUp = false ∧ 3 ≤ stageNow sUp ∧ rb pgTop 256 31 sUp = false) ∧
  (inService (lk 1 3 (stg 5 sOn)) = false ∧ 3 ≤ stageNow (lk 1 3 (stg 5 sOn)) ∧ rb pgTop 256 31 (lk 1 3 (stg 5 sOn)) = false) ∧
  (inService (lk 1 3 (wb pgDie 260 30 true (stg 6 sOn))) = false ∧ 3 ≤ stageNow (lk 1 3 (wb pgDie 260 30 true (stg 6 sOn))) ∧ rb pgTop 256 31 (lk 1 3 (wb pgDie 260 30 true (stg 6 sOn))) = false) ∧
  (inService sUp = false ∧ 3 ≤ stageNow sUp ∧ regReqOk 260 1 = true ∧
    regGet Requester.mgmt 260 sUp = (stOK, (regGet Requester.mgmt 260 sUp).snd.fst, (regGet Requester.mgmt 260 sUp).snd.snd) ∧
    inService (regGet Requester.mgmt 260 sUp).snd.snd = false) ∧
  (inService sUp = false ∧ 3 ≤ stageNow sUp ∧ regReqOk 260 1 = true ∧
    regPut Requester.mgmt 260 7 sUp = ((regPut Requester.mgmt 260 7 sUp).fst, (regPut Requester.mgmt 260 7 sUp).snd) ∧
    inService (regPut Requester.mgmt 260 7 sUp).snd = false) ∧
  (inService sUp = false ∧ 3 ≤ stageNow sUp ∧ regReqOk 327940 1 = true ∧
    regPut Requester.mgmt 327940 7 sUp = ((regPut Requester.mgmt 327940 7 sUp).fst, (regPut Requester.mgmt 327940 7 sUp).snd) ∧
    inService (regPut Requester.mgmt 327940 7 sUp).snd = false) := by
  repeat' apply And.intro
  all_goals decide +kernel

/-- Witness of the hypotheses of Obligations.RollCall. -/
theorem witness_RollCall :
  4 < 5 ∧
  (rp 0 5).trail = 0 ∧
  (claims sMem = true ∧ isTrailhead sMem = false ∧ sMem.roll.trail = 0) ∧
  ((sTr true).roll.trail ≠ 0 ∧ (sTr true).roll.trail ≤ 78) ∧
  ((sTr false).roll.trail ≠ 0 ∧ (sTr false).roll.trail ≤ 77) ∧
  ((rp 77 9).trail ≠ 0 ∧ rollHeld (sTr true) = true ∧ (rp 77 9).trail = (sTr true).roll.trail ∧ (sTr true).roll.round = 0) ∧
  ((rp 77 9).trail ≠ 0 ∧ rollHeld (wf pgTop 772 28 24 1 (sTr false)) = false ∧ parentPort (wf pgTop 772 28 24 1 (sTr false)) = some 1) ∧
  (rollHeld (wf pgTop 772 28 24 1 (sTr false)) = false ∧ (wf pgTop 772 28 24 1 (sTr false)).roll.trail = 77 ∧
    rf pgTop 772 23 16 (wf pgTop 772 28 24 1 (sTr false)) ≠ 1 ∧ (wf pgTop 772 28 24 1 (sTr false)).roll.segs = []) ∧
  (rollHeld (wf pgTop 772 23 16 255 (sTr false)) = false ∧ (wf pgTop 772 23 16 255 (sTr false)).roll.trail = 77 ∧
    rf pgTop 772 23 16 (wf pgTop 772 23 16 255 (sTr false)) = 255) ∧
  (rollHeld x11 = true ∧ x11.roll.round = 0 ∧ x11.roll.lastAt + msec * rf pgTop 776 15 0 x11 ≤ now x11) ∧
  rollHeld (sTr false) = false := by
  repeat' apply And.intro
  all_goals decide +kernel

end Start

-- Worked examples of the spec -----------------------------------------------------------------------------------------

/-- The unit at global (517, 300) (the example of R8): cluster 4,800, unit 37, region 20, logical index 0x4B205. -/
theorem test_place : unitOrigin 4800 37 = 0x4B205 ∧ regionOf 4800 = 20 ∧ (Page.clu 4800).base = 0x2012C0000 := by decide +kernel

/-- The generator's inputs in the example after R147. -/
theorem test_draw_inputs : genKey 1 0x4B205 0xD2E7 = 0x000014B20500D2E7 ∧ genCtr 0x12C40 3 = 0x000000012C400003 := by decide +kernel

/-- The block of the example after R147, under its four draws and under rne. -/
theorem test_requantise :
    let u (i : Nat) : Option Nat := some (nth 0 [0x3C10, 0xA2F7, 0x0E55, 0xF1B0] i)
    let q := toA true none [3000, -1234, 37, -5] (-7) u
    q.exp = 0x81 ∧ q.man.take 4 = [6, -3, 1, 0] ∧ flagsByte q = 2 ∧
    (toA true none [3000, -1234, 37, -5] (-7) (fun _ => none)).man.take 4 = [6, -2, 0, 0] := by decide +kernel

/-- The SAMPLE of the example after R249. -/
theorem test_sample :
    pickToken [(17, fpOf 0x40400000), (812, fpOf 0x41200000), (4096, fpOf 0x40A00000), (30001, fpOf 0x40000000)] 0x9C4E21A7 = 812 := by
  decide +kernel

/-- The address of the example of R376, under NEAR and under INTERLEAVE. -/
theorem test_interleave :
    placeOf 0x4A00000540 s0 = some (8, 0x200000540) ∧
    placeOf 0x4A00000540 (wr (pgStk 8) 0x118 1 s0) = some (9, 0x80000140) := by decide +kernel

/-- The multicast of the example of R342: its rectangle, and the hops of its head from (68, 32). -/
theorem test_multicast :
    mcRect 0xD0C00202 = (64, 67, 33, 33) ∧ fld 0xD0C00202 1 0 = 2 := by decide +kernel

/-- BAND at 25 °C in the example of R172. -/
theorem test_band :
    bandOf 20 (25 * 16) (wr (pgTrm 20) 0x130 (BitVec.ofNat 32 (20 * 2 ^ 16 + tc 9 (-107))) (wr (pgTrm 20) 0x134 (BitVec.ofNat 32
      (30 * 2 ^ 16 + tc 9 (-83))) s0)) = -95 := by decide +kernel

/-- SHA3-512 of "abc" (FIPS 202), and CRC-32C of "123456789". -/
theorem test_hashes :
    (sha3 [0x61, 0x62, 0x63]).take 8 = [0xb7, 0x51, 0x85, 0x0b, 0x1a, 0x57, 0x16, 0x8a] ∧
    crc32c [0x31, 0x32, 0x33, 0x34, 0x35, 0x36, 0x37, 0x38, 0x39] = 0xE3069283 := by decide +kernel

-- Ill-formed commands (WellFormed) --------------------------------------------------------------------------------------------

/-- Each check of WellFormed refuses a command that breaks it. -/
theorem test_ill_formed :
    (Instr.latchedLoRead .lantern 2).wf = false ∧ (Instr.latchedLoRead .lantern (2 ^ 40)).wf = false ∧ (Instr.lock 0x20000 0x10000).wf = false ∧
    (Instr.clusterStepComplete 16384).wf = false ∧ (Instr.readComplete 0 64 [] []).wf = false ∧ (Instr.unitFence .lantern 0 68).wf = false ∧
    (Instr.programGrant 64).wf = false ∧ (Instr.dieWordReach 16).wf = false ∧ (Instr.stackFence .lantern 20).wf = false ∧
    (Instr.linkwaitExpiry 5).wf = false ∧ (Instr.whiClaim .lantern 7).wf = false ∧ (Instr.ptpMessage 8 0 true).wf = false ∧
    (Instr.codewordReceive 12 { corrected := 0, uncorr := false, ackseq := 0, ackkind := 0, xoff := 0, flit := Links.fl }).wf = false ∧
    (Instr.stvNop { r := 64, slot := 0, pt := 0, sid := 0, bslot := 0, causes := [], lines := [], corr := 0, bad := [], errs := [] }).wf = false := by decide

/-- Well-formed commands at the ends of their ranges. -/
theorem test_well_formed :
    (Instr.latchedLoRead .lantern (2 ^ 40 - 4)).wf = true ∧ (Instr.lock 0x20000 0xFFFF).wf = true ∧
    (Instr.readComplete 16383 63 [] []).wf = true ∧ (Instr.unitFence .lantern 16383 67).wf = true ∧ (Instr.programGrant 63).wf = true := by decide

-- Single commands -----------------------------------------------------------------------------------------------------------------

/-- The state after a command. -/
def after (i : Instr) (s : State) : State := match exec i s with | .next t => t | _ => s

/-- A write of 32 bytes by PUT is read back, and the byte before it stays 0 (R568). -/
theorem test_put :
    let t := after (.put { sid := 0, seq := 1 } 0x20000 true ((List.range 32).map (BitVec.ofNat 8))) s0
    memRead 0x1FFFF 4 t = [0, 0, 1, 2] ∧ memByte 0x2001F t = 31 ∧ Memory.wf t.mem = true := by decide +kernel

/-- LOCK, a write to the locked register, UNLOCK with another key and with the stored key (R743). -/
theorem test_lock :
    let t := after (.lock 0x20000 5) s0
    locked pgClk t = true ∧ locked pgClk (after (.unlock 0x20000 6) t) = true ∧ locked pgClk (after (.unlock 0x20000 5) t) = false := by
  decide +kernel

/-- A source fires, is claimed by its target and completed (R669, R673, R674). -/
theorem test_claim :
    let s := wr (srcPage 66) (srcOff 0x100 66) 0x83040001 (wb pgWhi 0x100 0 true s0)
    let t := after (.whiClaim .lantern 4) (fire 66 s)
    srcState 66 (fire 66 s) = 1 ∧ srcState 66 t = 2 ∧ srcAcc 66 t = 0 ∧ srcState 66 (after (.whiComplete .lantern 4 66) t) = 0 := by
  decide +kernel

-- Witnesses of the statements about every command, and of those that rest on a constant without a body ---------------------------------------

/-- Witness of the hypotheses of Obligations.StepFront and Obligations.StepKeepsMemory: a PUT at the front of the queue of the state after reset. -/
def sPut : State := { s0 with pending := [.put { sid := 0, seq := 1 } 0x20000 true (List.replicate 32 7), .syncComplete] }
theorem witness_StepKeepsMemory : Memory.wf sPut.mem = true ∧ ∃ t, step sPut = .next t := ⟨by decide +kernel, _, rfl⟩

/-- Witness of the hypotheses of Obligations.CommandsKeepQueue, Obligations.MemoryFrame and Obligations.OnlyLanternLocks. -/
theorem witness_MemoryFrame :
    storesMem (.whiSetpend .lantern 66) = false ∧ lanternWrite (.whiSetpend .lantern 66) = false ∧
    Instr.whiSetpend .lantern 66 ≠ .rstNFall ∧ Instr.whiSetpend .lantern 66 ≠ .powerLoss ∧ ∃ t, exec (.whiSetpend .lantern 66) s0 = .next t :=
  ⟨by decide, by decide, by decide, by decide, _, rfl⟩

/-- Witness of the hypotheses of Obligations.AtReset at the ends of its ranges. -/
theorem witness_AtReset :
    (unitAt 16383 63 s0).serves = some 63 ∧ (unitAt 0 64 s0).serves = none ∧ rf (pgStk 19) 0x114 7 0 s0 = 8 := by decide +kernel

/-- Witness of the clause of Obligations.LoaderStates about a manifest that passes every check: it does so whenever the signature check, a
constant without a body, accepts the manifest's signature. -/
theorem witness_LoaderStates_passes :
    let s : State := { sLd 1 ld0 with opKey := [3] }
    Config.mldsaVerify s.opKey (mDigest 0x10000 s) (mSig 0x10000 s) = true →
    mfCheck s.ld s = none ∧ ldState s = 1 ∧ s.ld.mode ≠ 2 ∧
      firstBelow 256 (fun n => decide ((SMap.get ResRec.free s.resrecs n).st = 0)) = some 0 := by
  intro s h
  refine ⟨?_, by decide +kernel, by decide +kernel, by decide +kernel⟩
  have h1 : mfHeader 0x10000 s = none := by decide +kernel
  have h2 : mfReserved 0x10000 s = none := by decide +kernel
  have h3 : mfPlacement 0x10000 s = none := by decide +kernel
  have hm : s.ld.man = 0x10000 := rfl
  have hd : s.ld.mode = 0 := rfl
  have hk : s.opKey.isEmpty = false := rfl
  simp [mfCheck, mfSignature, hm, hd, hk, h, h1, h2, h3, badIf, failIf, firstOf]

/-- A flash copy of the least length, whose header is right. -/
def copy0 : FlashCopy :=
  { responds := true, header := leBytes 4 0x4C575A4D ++ leBytes 2 1 ++ leBytes 2 0 ++ leBytes 8 5 ++ leBytes 8 15123 ++ leBytes 40 0,
    keyset := [], body := [], sig := [] }

/-- Witness of the clause of Obligations.StartUp about a copy that passes: it does so whenever the key set's digest is the ROM's and the
signature check, both constants without a body, accepts the copy. -/
theorem witness_StartUp_boots :
    Config.keysetDigest = sha3 (slice copy0.keyset 0 keysetLen) →
    Config.mldsaVerify (slice copy0.keyset 0 keyLen) (copyDigest copy0) (slice copy0.sig 0 sigLen) = true →
    copyCode copy0 (Start.stg 2 sOn) = 0 ∧ stageNow (Start.stg 2 sOn) = 2 ∧ 2 ≤ logCopies (Start.stg 2 sOn) ∧ (Start.stg 2 sOn).boot.prefer = 0 ∧
      (Start.stg 2 sOn).enabled = true ∧ (Start.stg 2 sOn).boot.waiting = false ∧ (Start.stg 2 sOn).boot.halted = false ∧
      inService (Start.stg 2 sOn) = false := by
  intro h1 h2
  refine ⟨?_, by decide +kernel, by decide +kernel, by decide +kernel, by decide +kernel, by decide +kernel, by decide +kernel, by decide +kernel⟩
  have a : headerOk copy0 = true := by decide +kernel
  have k : leAt copy0.header 6 1 = 0 := by decide +kernel
  have r : rb pgSec 0x100 12 (Start.stg 2 sOn) = false := by decide +kernel
  have v : ¬ (leAt copy0.header 8 2 < rf pgSec 0x104 15 0 (Start.stg 2 sOn)) := by decide +kernel
  have c : copy0.responds = true := rfl
  simp [copyCode, a, k, r, v, c, h1, h2]

end Sys2Proof.Tests
end

section
/-! SUPPORT. The bits of a word under writes of its fields (R13, R20–R22): what each bit of a number reads as after one field of it, and after every
field of a register, is written. -/

namespace Sys2Proof.Machine

-- One field ---------------------------------------------------------------------------------------------------------------

theorem bit_eq_testBit (w i : Nat) : bit w i = w.testBit i := by
  simp [bit, fld, Nat.testBit_eq_decide_div_mod_eq, BEq.beq]

theorem fld_lt (w hi lo : Nat) : fld w hi lo < 2 ^ (hi + 1 - lo) := Nat.mod_lt _ (Nat.two_pow_pos _)

theorem testBit_fld (w hi lo i : Nat) : (fld w hi lo).testBit i = (decide (i < hi + 1 - lo) && w.testBit (i + lo)) := by
  simp [fld, Nat.testBit_mod_two_pow, Nat.testBit_div_two_pow]

@[simp] theorem fld_mod_width (w hi lo : Nat) : fld w hi lo % 2 ^ (hi + 1 - lo) = fld w hi lo := Nat.mod_mod ..

/-- A number with a field replaced is made of the bits above the field, the field, and the bits below it. -/
theorem putFld_eq_parts (w hi lo v : Nat) :
    putFld w hi lo v = 2 ^ lo * (2 ^ (hi + 1 - lo) * (w / 2 ^ lo / 2 ^ (hi + 1 - lo)) + v % 2 ^ (hi + 1 - lo)) + w % 2 ^ lo := by
  have low := Nat.div_add_mod w (2 ^ lo)
  have high := Nat.div_add_mod (w / 2 ^ lo) (2 ^ (hi + 1 - lo))
  unfold putFld fld
  generalize 2 ^ (hi + 1 - lo) * (w / 2 ^ lo / 2 ^ (hi + 1 - lo)) = q at *
  rw [← high, Nat.mul_add] at low
  rw [Nat.mul_add, Nat.mul_comm _ (2 ^ lo), Nat.mul_comm _ (2 ^ lo)]
  omega

theorem testBit_putFld (w hi lo v i : Nat) :
    (putFld w hi lo v).testBit i = if lo ≤ i ∧ i ≤ hi then v.testBit (i - lo) else w.testBit i := by
  rw [putFld_eq_parts, Nat.testBit_two_pow_mul_add _ (Nat.mod_lt _ (Nat.two_pow_pos lo)),
    Nat.testBit_two_pow_mul_add _ (Nat.mod_lt _ (Nat.two_pow_pos _))]
  by_cases below : i < lo
  · simp [below, Nat.testBit_mod_two_pow, Nat.not_le.mpr below]
  by_cases inside : i ≤ hi
  · have h : i - lo < hi + 1 - lo := by omega
    simp [below, h, inside, Nat.testBit_mod_two_pow, Nat.not_lt.mp below]
  · have h : ¬ i - lo < hi + 1 - lo := by omega
    have e : i - lo - (hi + 1 - lo) + (hi + 1 - lo) + lo = i := by omega
    simp [below, h, inside, Nat.testBit_div_two_pow, e]

/-- A write of one field leaves a field that lies apart from it. -/
theorem fld_putFld_apart {hi lo hi' lo' : Nat} (w v : Nat) (h : hi < lo' ∨ hi' < lo) : fld (putFld w hi lo v) hi' lo' = fld w hi' lo' := by
  refine Nat.eq_of_testBit_eq fun i => ?_
  rw [testBit_fld, testBit_fld, testBit_putFld]
  by_cases hi : i < hi' + 1 - lo'
  · rw [if_neg (by omega)]
  · simp [hi]

/-- Replacing a field that reads 0 adds its new value in its place. -/
theorem putFld_of_fld_zero {w hi lo : Nat} (v : Nat) (h : fld w hi lo = 0) : putFld w hi lo v = w + v % 2 ^ (hi + 1 - lo) * 2 ^ lo := by
  simp [putFld, h]

-- Every field of a register --------------------------------------------------------------------------------------------------

/-- No two fields of a list share a bit. -/
abbrev fieldsDisjoint (fs : List Field) : Prop := fs.Pairwise (fun f g => f.hi < g.lo ∨ g.hi < f.lo)

/-- A bit that lies in no field of a list (R22). -/
abbrev outsideFields (fs : List Field) (i : Nat) : Prop := ∀ f ∈ fs, i < f.lo ∨ f.hi < i

/-- A number with each field of a list replaced in turn by what `x` gives for it. -/
def putFields (x : Field → Nat) (fs : List Field) (w : Nat) : Nat := fs.foldl (fun a f => putFld a f.hi f.lo (x f)) w

@[simp] theorem putFields_nil (x : Field → Nat) (w : Nat) : putFields x [] w = w := rfl

@[simp] theorem putFields_cons (x : Field → Nat) (f : Field) (fs : List Field) (w : Nat) :
    putFields x (f :: fs) w = putFields x fs (putFld w f.hi f.lo (x f)) := rfl

/-- A bit outside every field keeps its value. -/
theorem testBit_putFields_outside (x : Field → Nat) {fs : List Field} {i : Nat} (h : outsideFields fs i) (w : Nat) :
    (putFields x fs w).testBit i = w.testBit i := by
  induction fs generalizing w with
  | nil => rfl
  | cons f fs ih =>
    have hf := h f (by simp)
    rw [putFields_cons, ih (fun g hg => h g (by simp [hg])), testBit_putFld, if_neg (by omega)]

/-- A bit of a field that no other field overlaps is the bit of the field's new value. -/
theorem testBit_putFields_mem (x : Field → Nat) {fs : List Field} (apart : fieldsDisjoint fs)
    {f : Field} (hf : f ∈ fs) {i : Nat} (hlo : f.lo ≤ i) (hhi : i ≤ f.hi) (w : Nat) :
    (putFields x fs w).testBit i = (x f).testBit (i - f.lo) := by
  induction fs generalizing w with
  | nil => simp at hf
  | cons g fs ih =>
    obtain ⟨first, rest⟩ := List.pairwise_cons.mp apart
    rw [putFields_cons]
    rcases List.mem_cons.mp hf with rfl | hf
    · have outside : outsideFields fs i := fun k hk => by have := first k hk; omega
      rw [testBit_putFields_outside x outside, testBit_putFld, if_pos ⟨hlo, hhi⟩]
    · exact ih rest hf _

/-- A field that no other field overlaps takes its own new value. -/
theorem fld_putFields (x : Field → Nat) {fs : List Field} (apart : fieldsDisjoint fs)
    {f : Field} (hf : f ∈ fs) (w : Nat) : fld (putFields x fs w) f.hi f.lo = x f % 2 ^ (f.hi + 1 - f.lo) := by
  refine Nat.eq_of_testBit_eq fun i => ?_
  rw [testBit_fld, Nat.testBit_mod_two_pow]
  by_cases hi : i < f.hi + 1 - f.lo
  · rw [testBit_putFields_mem x apart hf (by omega) (by omega), Nat.add_sub_cancel]
  · simp [hi]

/-- Fields that read 0 and lie apart may be added to a number as well as replaced in it. -/
theorem foldl_add_eq_putFields (v : Nat) {fs : List Field} (apart : fieldsDisjoint fs) (w : Nat)
    (zero : ∀ f ∈ fs, fld w f.hi f.lo = 0) :
    (fs.map (fun f => fld v f.hi f.lo * 2 ^ f.lo)).foldl (· + ·) w = putFields (fun f => fld v f.hi f.lo) fs w := by
  induction fs generalizing w with
  | nil => rfl
  | cons f fs ih =>
    obtain ⟨first, rest⟩ := List.pairwise_cons.mp apart
    have put : putFld w f.hi f.lo (fld v f.hi f.lo) = w + fld v f.hi f.lo * 2 ^ f.lo := by
      rw [putFld_of_fld_zero _ (zero f (by simp)), fld_mod_width]
    have zero' : ∀ g ∈ fs, fld (w + fld v f.hi f.lo * 2 ^ f.lo) g.hi g.lo = 0 := fun g hg => by
      rw [← put, fld_putFld_apart _ _ (first g hg), zero g (by simp [hg])]
    rw [List.map_cons, List.foldl_cons, putFields_cons, put, ih rest _ zero']

theorem inFields_eq_putFields (v : Nat) {fs : List Field} (apart : fieldsDisjoint fs) :
    inFields fs v = putFields (fun f => fld v f.hi f.lo) fs 0 :=
  foldl_add_eq_putFields v apart 0 (fun f _ => by simp [fld])

/-- The bits of a word that lie in fields are its bits there, and 0 elsewhere. -/
theorem testBit_inFields (v : Nat) {fs : List Field} (apart : fieldsDisjoint fs) (i : Nat) :
    (inFields fs v).testBit i = true ↔ v.testBit i = true ∧ ¬ outsideFields fs i := by
  rw [inFields_eq_putFields v apart]
  by_cases outside : outsideFields fs i
  · rw [testBit_putFields_outside _ outside, Nat.zero_testBit]
    exact ⟨fun one => absurd one Bool.false_ne_true, fun inside => absurd outside inside.2⟩
  · obtain ⟨f, hf, hlo, hhi⟩ : ∃ f ∈ fs, f.lo ≤ i ∧ i ≤ f.hi := by
      refine Decidable.byContradiction fun covers => outside fun f hf => ?_
      have : ¬ (f.lo ≤ i ∧ i ≤ f.hi) := fun h => covers ⟨f, hf, h⟩
      omega
    have hw : i - f.lo < f.hi + 1 - f.lo := by omega
    rw [testBit_putFields_mem _ apart hf hlo hhi, testBit_fld, Nat.sub_add_cancel hlo]
    simp only [hw, decide_true, Bool.true_and, outside, not_false_eq_true, and_true]

/-- A word has a bit beyond its fields exactly where it is not what its fields hold. -/
theorem inFields_ne_iff (v : Nat) {fs : List Field} (apart : fieldsDisjoint fs) :
    inFields fs v ≠ v ↔ ∃ i, outsideFields fs i ∧ v.testBit i = true := by
  constructor
  · refine fun differ => Classical.byContradiction fun noBit => differ (Nat.eq_of_testBit_eq fun i => Bool.eq_iff_iff.mpr ?_)
    rw [testBit_inFields v apart]
    exact ⟨And.left, fun one => ⟨one, fun outside => noBit ⟨i, outside, one⟩⟩⟩
  · rintro ⟨i, outside, one⟩ same
    rw [← same] at one
    exact ((testBit_inFields v apart i).mp one).2 outside

-- A register write -----------------------------------------------------------------------------------------------------------

/-- A register write puts into each field what its access code gives. -/
theorem writeFields_w (fs : List Field) (lk : Bool) (held : Nat → Bool) (old v : Nat) :
    (writeFields fs lk held old v).w =
      putFields (fun f => (fieldWrite lk (held f.lo) (fld old f.hi f.lo) (fld v f.hi f.lo) f).1) fs old :=
  (List.foldl_hom Written.w (fun _ _ => rfl)).symm

/-- What a register write meets in its reserved bits does not depend on its fields' access codes. -/
theorem writeFields_rsv (fs : List Field) (lk : Bool) (held : Nat → Bool) (old v : Nat) :
    (writeFields fs lk held old v).rsv = decide (inFields fs v ≠ v) := by
  unfold writeFields
  exact List.foldlRecOn fs _ (motive := fun (a : Written) => a.rsv = decide (inFields fs v ≠ v)) rfl (fun _ same _ _ => same)

/-- Settles O9: each field is put on its own bits, and fields that lie apart do not meet. -/
theorem fieldsWriteApart : Obligations.FieldsWriteApart := by
  unfold Obligations.FieldsWriteApart
  intro fs lk held old v ⟨_, apart⟩ _
  refine ⟨fun f hf => ?_, fun i outside => ?_, ?_⟩
  · rw [writeFields_w, fld_putFields _ apart hf]
  · rw [writeFields_w, bit_eq_testBit, testBit_putFields_outside _ outside, bit_eq_testBit]
  · rw [writeFields_rsv, decide_eq_true_iff, inFields_ne_iff v apart]
    simp only [bit_eq_testBit]

end Sys2Proof.Machine
end

section
/-! SUPPORT. Which registers the recording of an event reaches (R667–R669, R739–R742): PG_ERR and PG_ERRCNT of a page, the Whistle pages and
the SNS pages; and what a write of a register of the CLK, LOG, RGN and STV pages does. -/

namespace Sys2Proof.Machine

-- What the recording of an event leaves ------------------------------------------------------------------------------------

/-- A register of the map that the recording of an event never writes: one behind the page header, in no Whistle page (class 2) and no SNS
page (class 0x22). -/
def unrecorded (p : Page) (off : Nat) : Prop :=
  p.real = true ∧ 0x100 ≤ off ∧ off < 4096 ∧ p.cls.1 ≠ 2 ∧ p.cls.1 ≠ 0x22

theorem srcPage_cls {n : Nat} (h : n < 2048) : (srcPage n).cls.1 = 2 := by
  have whi : 1 ≤ 2 + n / 256 ∧ 2 + n / 256 ≤ 9 := by omega
  simp [srcPage, Page.cls, whi]

/-- A source's timer stands in no register (R669). -/
theorem rd_whiDue (q : Page) (b : Nat) (d : SMap Nat) (s : State) : rd q b { s with whiDue := d } = rd q b s := rfl

/-- A register that every step of a fold leaves reads as before it. -/
theorem rd_foldl_of_steps {q : Page} {b : Nat} {β : Type} {f : State → β → State} {l : List β}
    (hf : ∀ s, ∀ x ∈ l, rd q b (f s x) = rd q b s) (s : State) : rd q b (l.foldl f s) = rd q b s :=
  List.foldlRecOn l f (motive := fun t => rd q b t = rd q b s) rfl (fun t ht x hx => (hf t x hx).trans ht)

section
variable {q : Page} {b : Nat} (hq : unrecorded q b)
include hq

/-- A field written in a page header, in a Whistle page or in an SNS page is in no register that recording never writes. -/
theorem rd_wf_unrecorded {p : Page} {a : Nat} (hp : p.real = true) (ha : a < 4096) (h : a < 0x100 ∨ p.cls.1 = 2 ∨ p.cls.1 = 0x22)
    (hi lo v : Nat) (s : State) : rd q b (wf p a hi lo v s) = rd q b s := by
  obtain ⟨real, behind, within, notWhi, notSns⟩ := hq
  refine rd_wr_other _ s hp real ha within ?_
  rintro ⟨rfl, rfl⟩
  omega

theorem rd_fire_unrecorded {n : Nat} (h : n < 2048) (s : State) : rd q b (fire n s) = rd q b s := by
  have source (hi lo v : Nat) (s : State) : rd q b (wf (srcPage n) (srcOff 0x900 n) hi lo v s) = rd q b s :=
    rd_wf_unrecorded hq (srcPage_real h) (srcOff_lt n (by decide)) (.inr (.inl (srcPage_cls h))) hi lo v s
  have tried (s : State) : rd q b (srcTry n s) = rd q b s := by
    unfold srcTry
    split
    · exact source ..
    · rfl
  have timed (s : State) : rd q b (srcTimer n s) = rd q b s := by
    unfold srcTimer
    exact (rd_whiDue ..).trans (source ..)
  unfold fire
  dsimp only
  rw [tried]
  split
  · rw [timed, source]
  · exact source ..

theorem rd_raise_unrecorded (n : Nat) (s : State) : rd q b (raise n s) = rd q b s := by
  unfold raise
  split
  · exact rd_fire_unrecorded hq (by omega) s
  · dsimp only
    split <;> rfl

theorem rd_snsTrigger_unrecorded {r : Nat} (h : r < 64) (i : Nat) (s : State) : rd q b (snsTrigger r i s) = rd q b s := by
  have sns {a : Nat} (ha : a < 4096) (i : Nat) (v : Bool) (s : State) : rd q b (wb (pgSns r) a i v s) = rd q b s :=
    rd_wf_unrecorded hq (by simp [pgSns, Page.real, h]) ha (.inr (.inr rfl)) i i (b2n v) s
  unfold snsTrigger
  dsimp only
  split
  · rfl
  split
  · split
    · rfl
    · rw [sns (by decide), sns (by decide)]
  · exact sns (by decide) ..

theorem rd_evselAct_unrecorded {p : Page} (hp : p.real = true) (e i : Nat) (s : State) : rd q b (evselAct p e i s) = rd q b s := by
  unfold evselAct
  dsimp only
  split
  · split
    · unfold armSnapshot
      split <;> rfl
    · exact rd_foldl_of_steps (fun s r hr => rd_snsTrigger_unrecorded hq (Page.snsRegions_lt hp r hr) 3 s) _
    · rfl
  · rfl

/-- Recording an event leaves every register that `unrecorded` names (R739–R742). -/
theorem rd_recordErr_unrecorded {p : Page} (hp : p.real = true) (e : Nat) (s : State) : rd q b (recordErr p e s) = rd q b s := by
  have hpe := Page.errPage_real hp
  have header {a : Nat} (ha : a < 0x100) (hi lo v : Nat) (s : State) : rd q b (wf p.errPage a hi lo v s) = rd q b s :=
    rd_wf_unrecorded hq hpe (by omega) (.inl ha) hi lo v s
  have counted : rd q b (bump p.errPage 0x1C 31 0 1 (wb p.errPage 0x10 e true s)) = rd q b s :=
    (header (by decide) ..).trans (header (by decide) ..)
  unfold recordErr
  refine (rd_foldl_of_steps (fun s i _ => rd_evselAct_unrecorded hq hpe e i s) _).trans ?_
  split
  · rw [rd_raise_unrecorded hq, counted]
  · exact counted

theorem rd_recIf_unrecorded {p : Page} (hp : p.real = true) (c : Bool) (e : Nat) (s : State) : rd q b (recIf c p e s) = rd q b s := by
  cases c
  · rfl
  · exact rd_recordErr_unrecorded hq hp e s

/-- A write by access codes leaves the word they give (R20–R24): what it records goes elsewhere. -/
theorem rd_putReg_same (held : Nat → Bool) (v : Word) (s : State) :
    rd q b (putReg q b held v s) = word (writeFields ((q.fields b).getD []) (locked q s) held (rd q b s).toNat v.toNat).w := by
  unfold putReg recWrite
  simp only [rd_recIf_unrecorded hq hq.1, rd_wr_same]

end

-- Where a register access leads ------------------------------------------------------------------------------------------------

/-- A register address decodes to a page of the map and an offset within it (R721). -/
theorem pageOf_real {ra : Nat} {p : Page} {off : Nat} (h : pageOf ra = some (p, off)) : p.real = true ∧ off < 4096 := by
  unfold pageOf at h
  dsimp only at h
  split at h
  · cases h
    exact ⟨decide_eq_true (fld_lt ra 23 12), Nat.mod_lt _ (by decide)⟩
  split at h
  · cases h
    exact ⟨decide_eq_true ⟨fld_lt ra 25 20, fld_lt ra 19 12⟩, Nat.mod_lt _ (by decide)⟩
  split at h
  · cases h
    exact ⟨decide_eq_true (fld_lt ra 25 12), Nat.mod_lt _ (by decide)⟩
  · cases h

/-- The classes of the CLK, LOG, RGN and STV pages, none of whose registers has a write rule of its own (R733). -/
def plainClass (p : Page) : Prop := p.cls.1 = 3 ∨ p.cls.1 = 5 ∨ p.cls.1 = 0x20 ∨ p.cls.1 = 0x23

/-- The pages of these classes are die and region pages. -/
theorem plainClass.cases {p : Page} (h : plainClass p) : (∃ n, p = .die n) ∨ ∃ r, p = .rgn r 0 ∨ p = .rgn r 3 := by
  cases p with
  | die n => exact .inl ⟨n, rfl⟩
  | rgn r i =>
    refine .inr ⟨r, ?_⟩
    simp only [plainClass, Page.cls] at h
    split at h <;> simp at h ⊢
    omega
  | clu c => simp [plainClass, Page.cls] at h
  | unit c k => simp [plainClass, Page.cls] at h

/-- An access outside the cluster pages reaches the register that its address decodes to. -/
theorem reach_of_plainClass {q : Requester} {ra : Nat} {s : State} {p : Page} {off : Nat} (hra : pageOf ra = some (p, off))
    (hp : plainClass p) : reach q ra s = some (p, off) := by
  rcases hp.cases with ⟨n, rfl⟩ | ⟨r, rfl | rfl⟩ <;> simp [reach, hra]

theorem dieWrite_plain {q : Requester} {n off : Nat} {v : Word} {s : State} (h : plainClass (.die n)) :
    dieWrite q n off v s = putPlain (.die n) off v s := by
  unfold plainClass at h
  rcases cls : (Page.die n).cls with ⟨c, i⟩
  rw [cls] at h
  rcases h with rfl | rfl | rfl | rfl <;> simp [dieWrite, cls]

/-- Behind the header the pages of these classes are written by their registers' access codes alone. -/
theorem writeReg_plain {q : Requester} {p : Page} {off : Nat} {v : Word} {s : State} (hp : plainClass p) (ho : 0x100 ≤ off) :
    writeReg q p off v s = putPlain p off v s := by
  rcases hp.cases with ⟨n, rfl⟩ | ⟨r, rfl | rfl⟩
  · simp [writeReg, Nat.not_lt.mpr ho, dieWrite_plain hp]
  · simp [writeReg, Nat.not_lt.mpr ho, rgnWrite]
  · simp [writeReg, Nat.not_lt.mpr ho, rgnWrite]

/-- A write that its requester may make, of a page that is not off, completes with what the access codes give (R361, R726, R727). -/
theorem execRegisterWrite_plain {q : Requester} {ra : Nat} {v : Word} {s : State} {p : Page} {off : Nat}
    (hra : pageOf ra = some (p, off)) (ho : 0x100 ≤ off) (hp : plainClass p) (may : mayWrite q p off = true) (on : pageOff p s = false) :
    execRegisterWrite q ra v s = .next (putPlain p off v s) := by
  have mapped : p.cls.1 ≠ 0 := by unfold plainClass at hp; omega
  have put : regPut q ra v s = (stOK, putPlain p off v s) := by
    simp [regPut, reach_of_plainClass hra hp, may, on, mapped, writeReg_plain hp ho]
  simp [execRegisterWrite, put]

/-- Settles O10: what the write records lies in other registers than the one it leaves. -/
theorem registerWriteTakes : Obligations.RegisterWriteTakes := by
  unfold Obligations.RegisterWriteTakes
  intro q ra v s p off hra ho hp may on
  obtain ⟨real, within⟩ := pageOf_real hra
  have hu : unrecorded p off := ⟨real, ho, within, by omega, by omega⟩
  have reports := putPlain_reports p off v s
  exact ⟨putPlain p off v s, execRegisterWrite_plain hra ho hp may on, rd_putReg_same hu _ v s,
    putReg_sameRegs real within (by simp [oneReg]) _ v s, reports.locByte, reports.locks⟩

end Sys2Proof.Machine
end

section
/-! SUPPORT. Fields of a register, regions and clusters read as they were last written; a request of a region's source leaves as a message; a command
that nothing bars takes effect. -/

namespace Sys2Proof.Machine

-- A field of a register ------------------------------------------------------------------------------------------------------

/-- A field that was just replaced reads as its new value, cut to its width. -/
@[simp] theorem fld_putFld_same (w hi lo v : Nat) : fld (putFld w hi lo v) hi lo = v % 2 ^ (hi + 1 - lo) := by
  refine Nat.eq_of_testBit_eq fun i => ?_
  rw [testBit_fld, testBit_putFld, Nat.testBit_mod_two_pow]
  by_cases inside : i < hi + 1 - lo
  · rw [if_pos (by omega), Nat.add_sub_cancel]
  · simp [inside]

/-- A field that lies below bit n does not see a cut to n bits. -/
theorem fld_mod_two_pow {n hi : Nat} (w lo : Nat) (h : hi < n) : fld (w % 2 ^ n) hi lo = fld w hi lo := by
  refine Nat.eq_of_testBit_eq fun i => ?_
  rw [testBit_fld, testBit_fld, Nat.testBit_mod_two_pow]
  by_cases inside : i < hi + 1 - lo
  · have below : i + lo < n := by omega
    simp [below]
  · simp [inside]

/-- A field of a word that was just written is a field of the number written into it. -/
theorem getF_setF {hi' : Nat} (w : Word) (hi lo v lo' : Nat) (h : hi' < 32) :
    getF (setF w hi lo v) hi' lo' = fld (putFld w.toNat hi lo v) hi' lo' := by
  rw [getF, setF, BitVec.toNat_ofNat, fld_mod_two_pow _ _ h]

/-- A field of a register reads as it was written, cut to its width. -/
theorem rf_wf_same {hi : Nat} (p : Page) (off lo v : Nat) (s : State) (h : hi < 32) :
    rf p off hi lo (wf p off hi lo v s) = v % 2 ^ (hi + 1 - lo) := by
  rw [rf, wf, rd_wr_same, getF_setF _ _ _ _ _ h, fld_putFld_same]

/-- A write of one field of a register leaves another that lies apart from it. -/
theorem rf_wf_apart {hi lo hi' lo' : Nat} (p : Page) (off v : Nat) (s : State) (h : hi' < 32) (apart : hi < lo' ∨ hi' < lo) :
    rf p off hi' lo' (wf p off hi lo v s) = rf p off hi' lo' s := by
  rw [rf, wf, rd_wr_same, getF_setF _ _ _ _ _ h, fld_putFld_apart _ _ apart, rf, getF]

/-- Updates other than of registers leave every field of one. -/
theorem rf_of_regs {s t : State} (h : t.regs = s.regs) (p : Page) (off hi lo : Nat) : rf p off hi lo t = rf p off hi lo s := by
  rw [rf, rd_of_regs h, rf]

-- Regions and clusters ---------------------------------------------------------------------------------------------------------

@[simp] theorem rgnAt_updRgn_same (r : Nat) (f : Region → Region) (s : State) : rgnAt r (updRgn r f s) = f (rgnAt r s) :=
  SMap.get_set_same ..

@[simp] theorem cluAt_updClu_same (c : Nat) (f : Cluster → Cluster) (s : State) : cluAt c (updClu c f s) = f (cluAt c s) :=
  SMap.get_set_same ..

@[simp] theorem updRgn_regs (r : Nat) (f : Region → Region) (s : State) : (updRgn r f s).regs = s.regs := rfl
@[simp] theorem updRgn_units (r : Nat) (f : Region → Region) (s : State) : (updRgn r f s).units = s.units := rfl
@[simp] theorem updRgn_clus (r : Nat) (f : Region → Region) (s : State) : (updRgn r f s).clus = s.clus := rfl
@[simp] theorem updRgn_mem (r : Nat) (f : Region → Region) (s : State) : (updRgn r f s).mem = s.mem := rfl
@[simp] theorem updRgn_out (r : Nat) (f : Region → Region) (s : State) : (updRgn r f s).out = s.out := rfl
@[simp] theorem updClu_regs (c : Nat) (f : Cluster → Cluster) (s : State) : (updClu c f s).regs = s.regs := rfl
@[simp] theorem updClu_mem (c : Nat) (f : Cluster → Cluster) (s : State) : (updClu c f s).mem = s.mem := rfl

/-- States with the same memory have the same bytes. -/
theorem sameMem.ofMem {s t : State} (h : t.mem = s.mem) : sameMem s t := fun n loc => by simp [locByte, h]

/-- An event of a source of a powered region leaves as an INTR message (R668). -/
theorem fireRgn_powered {r i : Nat} {s : State} (hi : i < 16) (on : (rgnAt r s).off = false) :
    fireRgn r i s = say .guyline [9, r, i] s := by
  have source : (rgnSrc r i - 1024) / 16 = r ∧ (rgnSrc r i - 1024) % 16 = i := by simp only [rgnSrc]; omega
  have region : ¬ rgnSrc r i < 1024 := by simp only [rgnSrc]; omega
  simp [fireRgn, raise, region, source, on]

/-- A command of a requester that may write the register, on a page that is not off, takes effect (R361, R726, R727). -/
theorem guardWrite_open {q : Requester} {p : Page} {off : Nat} {s : State} (f : State → State) (may : mayWrite q p off = true)
    (on : pageOff p s = false) : guardWrite q p off f s = f s := by
  simp [guardWrite, may, on]

/-- Only management software may not write the trim engine's registers, PG_LOCK apart (R726, R727). -/
theorem mayWrite_trm {q : Requester} {off : Nat} (r : Nat) (hq : q ≠ .mgmt) (unlock : off ≠ 0x30) : mayWrite q (pgTrm r) off = true := by
  cases q with
  | lantern => rfl
  | dzit => simp [mayWrite, dzitMay, pgTrm, Page.cls, unlock]
  | mgmt => exact absurd rfl hq

end Sys2Proof.Machine
end

section
/-! SUPPORT. The order of a load to an IDLE spare (R93–R95): what CLU_SPAREn reads afterwards, and what stays. -/

namespace Sys2Proof.Machine

/-- An IDLE spare that no command has taken: its STATE and MODE read 0. -/
theorem mem_idleSpares {c n : Nat} {s : State} :
    n ∈ idleSpares c s ↔ n < 4 ∧ spareSt c n s = 0 ∧ rf (.clu c) (0x180 + 4 * n) 10 8 s = 0 := by
  simp [idleSpares, spareSt]

/-- A spare's register with the LOGICAL, MODE and PLANES of a write that is taken, in STATE LOADING (R93, R94). -/
def spareTold (c n logical mode planes : Nat) (s : State) : State :=
  setSpareSt c n 1 (wf (.clu c) (0x180 + 4 * n) 13 12 planes
    (wf (.clu c) (0x180 + 4 * n) 10 8 mode (wf (.clu c) (0x180 + 4 * n) 5 0 logical s)))

/-- The programming of a spare's plane is queued with its region (R85, R95). -/
def queueSpare (c n : Nat) (s : State) (p : Nat) : State :=
  updRgn (regionOf c) (fun x => { x with queue := x.queue ++ [{ unit := ukey c (64 + n), plane := p, kind := .spare }] }) s

section
variable (c n logical mode planes : Nat) (s : State)

theorem spareTold_st : spareSt c n (spareTold c n logical mode planes s) = 1 := rf_wf_same _ _ _ _ _ (by decide)

theorem spareTold_mode : rf (.clu c) (0x180 + 4 * n) 10 8 (spareTold c n logical mode planes s) = mode % 8 := by
  unfold spareTold setSpareSt
  rw [rf_wf_apart _ _ _ _ (by decide) (by decide), rf_wf_apart _ _ _ _ (by decide) (by decide)]
  exact rf_wf_same _ _ _ _ _ (by decide)

theorem spareTold_logical : rf (.clu c) (0x180 + 4 * n) 5 0 (spareTold c n logical mode planes s) = logical % 64 := by
  unfold spareTold setSpareSt
  rw [rf_wf_apart _ _ _ _ (by decide) (by decide), rf_wf_apart _ _ _ _ (by decide) (by decide),
    rf_wf_apart _ _ _ _ (by decide) (by decide)]
  exact rf_wf_same _ _ _ _ _ (by decide)

theorem spareTold_mem : (spareTold c n logical mode planes s).mem = s.mem := by
  simp only [spareTold, setSpareSt, wf, wr_mem]

/-- The write stays within the spare's own register. -/
theorem spareTold_sameRegs {c n : Nat} (hc : c < 16384) (hn : n < 4) :
    sameRegs (oneReg (.clu c) (0x180 + 4 * n)) s (spareTold c n logical mode planes s) := by
  have put (hi lo v : Nat) (s : State) : sameRegs (oneReg (.clu c) (0x180 + 4 * n)) s (wf (.clu c) (0x180 + 4 * n) hi lo v s) :=
    wf_sameRegs hi lo v s (by simp [Page.real, hc]) (by omega) (.inl (by simp [oneReg]))
  exact (((put _ _ _ _).trans (put _ _ _ _)).trans (put _ _ _ _)).trans (put _ _ _ _)

end

/-- Queueing planes changes regions alone. -/
theorem queueSpare_foldl_frame (c n : Nat) (l : List Nat) (s : State) :
    l.foldl (queueSpare c n) s = { s with rgns := (l.foldl (queueSpare c n) s).rgns } :=
  List.foldlRecOn l (queueSpare c n) (motive := fun t => t = { s with rgns := t.rgns }) rfl
    (fun t ht p _ => congrArg (fun u : State => { u with rgns := (queueSpare c n t p).rgns }) ht)

/-- A write of MODE SUBSTITUTE or STAND-IN to an IDLE spare is taken where no other spare is named for the logical unit (R94, R95 order 1). -/
theorem spareWrite_of_idle {c n logical mode planes : Nat} {s : State} (hm : mode = 1 ∨ mode = 2) (idle : spareSt c n s = 0)
    (free : ∀ i, i < 4 → i ≠ n → rf (.clu c) (0x180 + 4 * i) 10 8 s = 0 ∨ rf (.clu c) (0x180 + 4 * i) 5 0 s ≠ logical) :
    spareWrite c n logical mode planes s =
      (sparePlanes c logical planes (spareTold c n logical mode planes s)).foldl (queueSpare c n) (spareTold c n logical mode planes s) := by
  have idle' : getF (rd (.clu c) (0x180 + 4 * n) s) 18 16 = 0 := idle
  have unnamed : ¬ ((List.range 4).any (fun m => decide (m ≠ n ∧ rf (.clu c) (0x180 + 4 * m) 10 8 s ≠ 0 ∧
      rf (.clu c) (0x180 + 4 * m) 5 0 s = logical)) = true) := by
    simp only [List.any_eq_true, List.mem_range, decide_eq_true_eq]
    rintro ⟨i, hi, other, used, named⟩
    exact (free i hi other).elim used (fun h => h named)
  unfold spareWrite
  dsimp only
  rw [if_neg (by omega), if_neg (by omega), if_neg (fun busy => busy idle'), if_neg unnamed]
  rfl

/-- Such a write changes what the spare is told, and the queue of its region. -/
theorem spareWrite_told {c n logical mode planes : Nat} {s : State} (hm : mode = 1 ∨ mode = 2) (idle : spareSt c n s = 0)
    (free : ∀ i, i < 4 → i ≠ n → rf (.clu c) (0x180 + 4 * i) 10 8 s = 0 ∨ rf (.clu c) (0x180 + 4 * i) 5 0 s ≠ logical) :
    spareWrite c n logical mode planes s =
      { spareTold c n logical mode planes s with rgns := (spareWrite c n logical mode planes s).rgns } := by
  rw [spareWrite_of_idle hm idle free]
  exact queueSpare_foldl_frame ..

end Sys2Proof.Machine
end

section
/-! SUPPORT. The refresh of planes and the commands of the trim engine (R184–R189, R209, R210). -/

namespace Sys2Proof.Machine

-- A released plane ---------------------------------------------------------------------------------------------------------------

theorem mem_refreshFirst (q : PgmReq) (l : List PgmReq) : q ∈ refreshFirst q l := by simp [refreshFirst]

/-- The refresh of a plane, once queued, waits for a slot or has one (R187). -/
theorem mem_queueRefresh (c slot p : Nat) (s : State) :
    let q : PgmReq := { unit := ukey c slot, plane := p, kind := .refresh }
    q ∈ (rgnAt (regionOf c) (queueRefresh c slot p s)).queue ∨ q ∈ (rgnAt (regionOf c) (queueRefresh c slot p s)).active := by
  intro q
  simp only [queueRefresh, rgnAt_updRgn_same]
  split
  next there =>
    simp only [Bool.or_eq_true, List.contains_iff_mem] at there
    exact there
  next =>
    split
    · exact .inl (mem_refreshFirst ..)
    · exact .inl (by simp [q])

/-- The command that asked for a refresh has begun once the refresh is queued (R210). -/
theorem refreshAsked_queueRefresh (c slot p : Nat) (s : State) : refreshAsked c slot p (queueRefresh c slot p s) = false := by
  simp only [refreshAsked, queueRefresh, rgnAt_updRgn_same, List.any_map, List.any_eq_false, Function.comp_apply]
  intro k _
  split
  · simp
  next other =>
    simp only [decide_eq_true_eq]
    exact fun ⟨op, _, cluster, slot, plane⟩ => other ⟨op, cluster, slot, plane⟩

-- A held plane ---------------------------------------------------------------------------------------------------------------------

/-- No spare is named for a logical unit where none in use names it (R94). -/
theorem spareNamed_eq_false {c l : Nat} {s : State}
    (h : ∀ i, i < 4 → rf (.clu c) (0x180 + 4 * i) 10 8 s = 0 ∨ rf (.clu c) (0x180 + 4 * i) 5 0 s ≠ l) : spareNamed c l s = false := by
  simp only [spareNamed, List.any_eq_false, List.mem_range, decide_eq_true_eq]
  rintro i hi ⟨used, named⟩
  exact (h i hi).elim used (fun other => other named)

/-- A spare is ordered to stand in for a refresh of logical unit l, and the cluster notes that it does so for a refresh (R185). -/
def orderStandIn (c n l : Nat) (s : State) : State :=
  updClu c (fun cl => { cl with refr := n :: cl.refr.filter (· ≠ n) }) (spareWrite c n l 2 0 s)

theorem mem_refr_orderStandIn (c n l : Nat) (s : State) : n ∈ (cluAt c (orderStandIn c n l s)).refr := by simp [orderStandIn]

section
variable {c n l : Nat} {s : State} (idle : spareSt c n s = 0)
  (free : ∀ i, i < 4 → i ≠ n → rf (.clu c) (0x180 + 4 * i) 10 8 s = 0 ∨ rf (.clu c) (0x180 + 4 * i) 5 0 s ≠ l)
include idle free

theorem orderStandIn_regs : (orderStandIn c n l s).regs = (spareTold c n l 2 0 s).regs := by
  rw [orderStandIn, updClu_regs, spareWrite_told (.inr rfl) idle free]

theorem orderStandIn_mem : (orderStandIn c n l s).mem = s.mem := by
  rw [orderStandIn, updClu_mem, spareWrite_told (.inr rfl) idle free, spareTold_mem]

end

-- An overdue plane -------------------------------------------------------------------------------------------------------------------

/-- The region of a plane that has become overdue: it is marked, and its request goes before every other refresh (R189). -/
def becomeOverdue (k : Nat × Nat) (q : PgmReq) (x : Region) : Region :=
  { x with overdue := k :: x.overdue, queue := if x.queue.contains q then refreshFirst q x.queue else x.queue }

-- REFRESH_OVERDUE and REFRESH_START --------------------------------------------------------------------------------------------------

section
variable {c slot p : Nat} {s : State} (open_ : (rgnAt (regionOf c) s).fenced = false) (on : (rgnAt (regionOf c) s).off = false)
  (resident : ((unitAt c slot s).plane p).st = .resident)
include open_ on resident

/-- REFRESH_OVERDUE of a plane that waits beyond DAYS marks it and raises TRM_REFRESH, source 6 of its region (R189). -/
theorem execRefreshOverdue_late (enabled : rb (pgTrm (regionOf c)) 0x100 3 s = true) (late : daysPassed c slot p s = true)
    (waits : refreshWaits c slot p s = true) (unmarked : (rgnAt (regionOf c) s).overdue.contains (ukey c slot, p) = false) :
    execRefreshOverdue c slot p s = .next (say .guyline [9, regionOf c, 6] (updRgn (regionOf c)
      (becomeOverdue (ukey c slot, p) { unit := ukey c slot, plane := p, kind := .refresh }) s)) := by
  unfold execRefreshOverdue
  dsimp only
  rw [unmarked, if_neg (by simp [open_, on, enabled, resident, late, waits]), fireRgn_powered (by decide) (by simp [on])]
  rfl

variable (unfenced : (unitAt c slot s).fenced = false) (other : underOther c slot s = false) (due : refreshDue c slot p s = true)
include unfenced other due

/-- REFRESH_START of a due plane that nothing holds queues its refresh (R184, R187). -/
theorem execRefreshStart_released (released : planeHeld c slot p s = false) :
    execRefreshStart c slot p s = .next (queueRefresh c slot p s) := by
  simp [execRefreshStart, open_, on, resident, unfenced, other, due, released]

/-- REFRESH_START of a due plane that an image holds orders the first of two IDLE spares to stand in (R185), where no overdue plane of the cluster
comes before it (R189). -/
theorem execRefreshStart_held {l n m : Nat} {ms : List Nat} (held : planeHeld c slot p s = true) (original : slot < 64)
    (first : (rgnAt (regionOf c) s).overdue.contains (ukey c slot, p) = true ∨ overdueWaits c slot p s = false)
    (serves : (unitAt c slot s).serves = some l) (spares : idleSpares c s = n :: m :: ms) (unnamed : spareNamed c l s = false) :
    execRefreshStart c slot p s = .next (orderStandIn c n l s) := by
  have goes : ¬ (64 ≤ slot ∨ spareNamed c l s = true ∨
      ((!(rgnAt (regionOf c) s).overdue.contains (ukey c slot, p)) = true ∧ overdueWaits c slot p s = true)) := by
    rintro (spare | named | ⟨unmarked, later⟩)
    · omega
    · exact Bool.false_ne_true (unnamed ▸ named)
    · rcases first with h | h
      · exact absurd unmarked (by rw [h]; decide)
      · exact Bool.false_ne_true (h ▸ later)
  unfold execRefreshStart
  dsimp only
  rw [if_neg (by simp [open_, on, unfenced, other, resident, due]), if_neg (by simp [held]), serves, spares]
  exact if_neg goes

end

-- The commands of TRM_CMD ---------------------------------------------------------------------------------------------------------

/-- Two commands of the trim engine that are merged (R210): of one operation, and, but for COL and REF of the region, of one unit-plane. -/
def TrimCmd.same (k x : TrimCmd) : Bool :=
  decide (x.op = k.op) && (decide (k.op = 2) || decide (x.cluster = k.cluster ∧ x.slot = k.slot ∧ x.plane = k.plane))

/-- A command joins those that wait with a region's engine, unless it is merged with one of them (R209, R210). -/
def joinTrim (k : TrimCmd) (x : Region) : Region := if x.cmds.any k.same then x else { x with cmds := x.cmds ++ [k] }

theorem joinTrim_cmds (k : TrimCmd) (x : Region) : (joinTrim k x).cmds = if x.cmds.any k.same then x.cmds else x.cmds ++ [k] := by
  unfold joinTrim
  split <;> rfl

/-- After a command of the trim engine: it waits once with those that waited before, and no register, unit or byte has changed. -/
def TrimWaits (r : Nat) (k : TrimCmd) (s t : State) : Prop :=
  (rgnAt r t).cmds = (if (rgnAt r s).cmds.any k.same then (rgnAt r s).cmds else (rgnAt r s).cmds ++ [k]) ∧
    t.regs = s.regs ∧ t.units = s.units ∧ t.mem = s.mem

theorem joinTrim_waits (r : Nat) (k : TrimCmd) (s : State) : TrimWaits r k s (updRgn r (joinTrim k) s) :=
  ⟨by rw [rgnAt_updRgn_same, joinTrim_cmds], rfl, rfl, rfl⟩

section
variable {r cluster slot plane : Nat} (s : State)

theorem trmCommand_colRef (hc : cluster < 256) (hs : slot < 68) : trmCommand r 1 cluster slot 0 s = updRgn r (joinTrim
    { op := 1, cluster := cluster, slot := slot, plane := 0, left := [(slot, 0), (slot, 1), (slot, 2)], begun := false }) s := by
  unfold trmCommand
  rw [if_neg (by omega), if_neg (by decide), Nat.mod_eq_of_lt hc]
  rfl

theorem trmCommand_colRefRegion : trmCommand r 2 0 0 0 s =
    updRgn r (joinTrim { op := 2, cluster := 0, slot := 0, plane := 0, left := clusterSets, begun := false }) s := rfl

theorem trmCommand_res (hc : cluster < 256) (hs : slot < 68) (hp : plane < 2) : trmCommand r 3 cluster slot plane s = updRgn r (joinTrim
    { op := 3, cluster := cluster, slot := slot, plane := plane, left := [(slot, 3 + plane)], begun := false }) s := by
  unfold trmCommand
  rw [if_neg (by omega), if_neg (by decide), Nat.mod_eq_of_lt hc, Nat.mod_eq_of_lt hp]
  rfl

theorem trmCommand_refresh (hc : cluster < 256) (hs : slot < 68) (hp : plane < 2) : trmCommand r 4 cluster slot plane s = updRgn r (joinTrim
    { op := 4, cluster := cluster, slot := slot, plane := plane, left := [], begun := false }) s := by
  unfold trmCommand
  rw [if_neg (by omega), if_neg (by decide), Nat.mod_eq_of_lt hc, Nat.mod_eq_of_lt hp]
  rfl

end

/-- A write of TRM_CMD that its requester may make leaves its command waiting. -/
theorem trmWrite_waits {q : Requester} {r : Nat} {s : State} {f : State → State} {k : TrimCmd} (hq : q ≠ .mgmt) (on : pageOff (pgTrm r) s = false)
    (takes : f s = updRgn r (joinTrim k) s) : TrimWaits r k s (guardWrite q (pgTrm r) 0x158 f s) := by
  rw [guardWrite_open f (mayWrite_trm r hq (by decide)) on, takes]
  exact joinTrim_waits r k s

-- The statement ---------------------------------------------------------------------------------------------------------------------

/-- Settles O27: a case each for a released, a held and an overdue plane, and one for the commands, which all join those that wait. -/
theorem refreshAndTrim : Obligations.RefreshAndTrim := by
  unfold Obligations.RefreshAndTrim
  refine ⟨fun c slot p s hc hslot hp open_ on resident => ⟨?released, ?held, ?overdue⟩, ?commands⟩
  case released =>
    intro unfenced other due released
    exact ⟨queueRefresh c slot p s, execRefreshStart_released open_ on resident unfenced other due released, mem_queueRefresh c slot p s,
      refreshAsked_queueRefresh c slot p s, rfl, rfl, rfl⟩
  case held =>
    intro l n m ms unfenced other due held original logical first serves spares free
    obtain ⟨hn, idle, unused⟩ := mem_idleSpares.mp (spares ▸ List.mem_cons_self : n ∈ idleSpares c s)
    have unnamed : spareNamed c l s = false := spareNamed_eq_false fun i hi => by
      by_cases e : i = n
      · exact .inl (e ▸ unused)
      · exact free i hi e
    have regs := orderStandIn_regs idle free
    refine ⟨orderStandIn c n l s, execRefreshStart_held open_ on resident unfenced other due held original first serves spares unnamed,
      ?_, ?_, ?_, mem_refr_orderStandIn c n l s, ?_, sameMem.ofMem (orderStandIn_mem idle free)⟩
    · exact (rf_of_regs regs ..).trans (spareTold_st ..)
    · exact (rf_of_regs regs ..).trans (spareTold_mode ..)
    · exact (rf_of_regs regs ..).trans ((spareTold_logical ..).trans (Nat.mod_eq_of_lt logical))
    · exact (spareTold_sameRegs l 2 0 s hc hn).trans (sameRegs.ofRegs _ regs)
  case overdue =>
    intro enabled late waits unmarked
    refine ⟨_, execRefreshOverdue_late open_ on resident enabled late waits unmarked, ?_, rfl, rfl, rfl⟩
    show (ukey c slot, p) ∈ (rgnAt (regionOf c) (updRgn (regionOf c) _ s)).overdue
    rw [rgnAt_updRgn_same]
    exact List.mem_cons_self
  case commands =>
    intro q r cluster slot plane s hr hq on hc hs hp waits
    exact ⟨⟨_, rfl, trmWrite_waits hq on (trmCommand_colRef s hc hs)⟩, ⟨_, rfl, trmWrite_waits hq on (trmCommand_colRefRegion s)⟩,
      ⟨_, rfl, trmWrite_waits hq on (trmCommand_res s hc hs hp)⟩, ⟨_, rfl, trmWrite_waits hq on (trmCommand_refresh s hc hs hp)⟩⟩

end Sys2Proof.Machine
end
